-- ==== Sys2Proof/Word.lean ====
section
/-! DEFINITION. The two word types of the CORE (00_scope.md R6: a byte is 8 bits, a word is 16 bits).
Bit fields, sign extension and byte order are written where they are used (Decode, Machine/Ops, Machine/Flags). -/

namespace Sys2Proof

/-- A byte: 8 bits, bit 0 the least significant (R6). -/
abbrev Byte := BitVec 8

/-- A word: 16 bits, bit 0 the least significant (R6). -/
abbrev Word := BitVec 16

end Sys2Proof
end

