-- ==== Sys2Proof/Syntax.lean ====
section
/-! DEFINITION. The registers an instruction can name and the instructions of spec/opcode_table.json, one
constructor per row, in the table's order. Operands stand in the assembler's order: destination (op1), then
source (op2) (30_encoding.md R96). Only register-direct ModR/M forms exist (R84), so an `r/m` operand is a register. -/

namespace Sys2Proof

/-- The eight byte registers, halves of the four general registers (10_state.md R21). -/
inductive Reg8 where
  | al | cl | dl | bl | ah | ch | dh | bh
  deriving DecidableEq, Repr

/-- The eight word registers a 3-bit field can select (10_state.md R23). -/
inductive Reg16 where
  | ax | cx | dx | bx | sp | bp | si | di
  deriving DecidableEq, Repr

/-- The four segment registers (10_state.md R25). -/
inductive SReg where
  | es | cs | ss | ds
  deriving DecidableEq, Repr

/-- The 55 instruction forms of the decode table (30_encoding.md R91). -/
inductive Instr where
  /-- `00 /r` ADD r/m8, r8 (R123). -/
  | addRm8R8 (rm reg : Reg8)
  /-- `02 /r` ADD r8, r/m8 (R123). -/
  | addR8Rm8 (reg rm : Reg8)
  /-- `04 ib` ADD AL, imm8 (R123). -/
  | addAlImm8 (imm : Byte)
  /-- `08 /r` OR r/m8, r8 (R128). -/
  | orRm8R8 (rm reg : Reg8)
  /-- `0A /r` OR r8, r/m8 (R128). -/
  | orR8Rm8 (reg rm : Reg8)
  /-- `0C ib` OR AL, imm8 (R128). -/
  | orAlImm8 (imm : Byte)
  /-- `10 /r` ADC r/m8, r8 (R124). -/
  | adcRm8R8 (rm reg : Reg8)
  /-- `12 /r` ADC r8, r/m8 (R124). -/
  | adcR8Rm8 (reg rm : Reg8)
  /-- `14 ib` ADC AL, imm8 (R124). -/
  | adcAlImm8 (imm : Byte)
  /-- `20 /r` AND r/m8, r8 (R127). -/
  | andRm8R8 (rm reg : Reg8)
  /-- `22 /r` AND r8, r/m8 (R127). -/
  | andR8Rm8 (reg rm : Reg8)
  /-- `24 ib` AND AL, imm8 (R127). -/
  | andAlImm8 (imm : Byte)
  /-- `28 /r` SUB r/m8, r8 (R125). -/
  | subRm8R8 (rm reg : Reg8)
  /-- `2A /r` SUB r8, r/m8 (R125). -/
  | subR8Rm8 (reg rm : Reg8)
  /-- `2C ib` SUB AL, imm8 (R125). -/
  | subAlImm8 (imm : Byte)
  /-- `30 /r` XOR r/m8, r8 (R129). -/
  | xorRm8R8 (rm reg : Reg8)
  /-- `32 /r` XOR r8, r/m8 (R129). -/
  | xorR8Rm8 (reg rm : Reg8)
  /-- `34 ib` XOR AL, imm8 (R129). -/
  | xorAlImm8 (imm : Byte)
  /-- `38 /r` CMP r/m8, r8 (R126). -/
  | cmpRm8R8 (rm reg : Reg8)
  /-- `3A /r` CMP r8, r/m8 (R126). -/
  | cmpR8Rm8 (reg rm : Reg8)
  /-- `3C ib` CMP AL, imm8 (R126). -/
  | cmpAlImm8 (imm : Byte)
  /-- `27` DAA (R130). -/
  | daa
  /-- `48+r` DEC r16 (R132). -/
  | decR16 (r : Reg16)
  /-- `50+r` PUSH r16 (R182). -/
  | pushR16 (r : Reg16)
  /-- `58+r` POP r16 (R183). -/
  | popR16 (r : Reg16)
  /-- `60` PUSHA (R184). -/
  | pusha
  /-- `72 cb` JB rel8 (R202). -/
  | jbRel8 (d : Byte)
  /-- `74 cb` JZ rel8 (R204). -/
  | jzRel8 (d : Byte)
  /-- `75 cb` JNZ rel8 (R205). -/
  | jnzRel8 (d : Byte)
  /-- `76 cb` JBE rel8 (R203). -/
  | jbeRel8 (d : Byte)
  /-- `88 /r` MOV r/m8, r8 (R240). -/
  | movRm8R8 (rm reg : Reg8)
  /-- `89 /r` MOV r/m16, r16 (R241). -/
  | movRm16R16 (rm reg : Reg16)
  /-- `8A /r` MOV r8, r/m8 (R242). -/
  | movR8Rm8 (reg rm : Reg8)
  /-- `8B /r` MOV r16, r/m16 (R243). -/
  | movR16Rm16 (reg rm : Reg16)
  /-- `8C /1` MOV r/m16, CS (R244). -/
  | movRm16Cs (rm : Reg16)
  /-- `8C /3` MOV r/m16, DS (R244). -/
  | movRm16Ds (rm : Reg16)
  /-- `8E /1` MOV CS, r/m16 (R245). -/
  | movCsRm16 (rm : Reg16)
  /-- `8E /3` MOV DS, r/m16 (R245). -/
  | movDsRm16 (rm : Reg16)
  /-- `9C` PUSHF (R185). -/
  | pushf
  /-- `9D` POPF (R186). -/
  | popf
  /-- `A4` MOVSB (R161). -/
  | movsb
  /-- `A5` MOVSW (R162). -/
  | movsw
  /-- `AA` STOSB (R165). -/
  | stosb
  /-- `AB` STOSW (R166). -/
  | stosw
  /-- `AC` LODSB (R163). -/
  | lodsb
  /-- `AD` LODSW (R164). -/
  | lodsw
  /-- `B0+r ib` MOV r8, imm8 (R246). -/
  | movR8Imm8 (r : Reg8) (imm : Byte)
  /-- `B8+r iw` MOV r16, imm16 (R247). -/
  | movR16Imm16 (r : Reg16) (imm : Word)
  /-- `C3` RET (R208). -/
  | ret
  /-- `CD ib` INT imm8 (R220). -/
  | intImm8 (n : Byte)
  /-- `D3 /2` RCL r/m16, CL (R131). -/
  | rclRm16Cl (rm : Reg16)
  /-- `E2 cb` LOOP rel8 (R206). -/
  | loopRel8 (d : Byte)
  /-- `E8 cw` CALL rel16 (R207). -/
  | callRel16 (disp : Word)
  /-- `EB cb` JMP rel8 (R201). -/
  | jmpRel8 (d : Byte)
  /-- `FE /0` INC r/m8 (R133). -/
  | incRm8 (rm : Reg8)
  deriving DecidableEq, Repr

end Sys2Proof
end

