-- ==== Sys2Proof/WellFormed.lean ====
section
/-! DEFINITION. What is well formed. A term of `Instr` names registers by constructors and immediates by all of
their bits, and every register field value maps to a register (30_encoding.md R85), so every term of `Instr` is
well formed by its type. What can be ill formed is a ModR/M byte: these are the checks of R84, R85 and R93,
stated here on their own; Decode.lean makes them independently and names the refusal. -/

namespace Sys2Proof

/-- How an opcode uses the reg field of its ModR/M byte (30_encoding.md R91, columns tag1, tag2 and ext). -/
inductive ModrmUse where
  /-- reg and rm both name registers: every field value maps (R85). -/
  | registers
  /-- the reg field must be the opcode extension `e` (R93). -/
  | extension (e : BitVec 3)
  /-- the reg field names a segment register: CS or DS only (R85). -/
  | segment
  deriving DecidableEq, Repr

/-- R84: only mod = 3 (binary 11 in bits 7:6). -/
abbrev ModeWellFormed (m : Byte) : Prop := m.toNat / 64 = 3

/-- R85 and R93: the reg field (bits 5:3) is one the opcode admits. -/
abbrev FieldWellFormed (u : ModrmUse) (m : Byte) : Prop :=
  match u with
  | .registers => True
  | .extension e => m.toNat / 8 % 8 = e.toNat
  | .segment => m.toNat / 8 % 8 = 1 ∨ m.toNat / 8 % 8 = 3

/-- A ModR/M byte that resolves under `u` (R84, R85, R93). -/
abbrev ModrmWellFormed (u : ModrmUse) (m : Byte) : Prop := ModeWellFormed m ∧ FieldWellFormed u m

end Sys2Proof
end

