-- ==== Sys2Proof/Decode.lean ====
section
/-! DEFINITION. The decode table (30_encoding.md R90, R91), the decoder, and after it the encoder.
The decoder reads a list of bytes, takes one instruction from its front and answers it with the bytes left over, or
rejects by the name of the fault the resolver raises (R84, R85, R92, R93). -/

namespace Sys2Proof

/-! ### Fields -/

/-- The byte register a 3-bit field selects (10_state.md R23). -/
def Reg8.ofField (f : BitVec 3) : Reg8 :=
  match f.toNat with
  | 0 => .al | 1 => .cl | 2 => .dl | 3 => .bl | 4 => .ah | 5 => .ch | 6 => .dh | _ => .bh

/-- The word register a 3-bit field selects (10_state.md R23). -/
def Reg16.ofField (f : BitVec 3) : Reg16 :=
  match f.toNat with
  | 0 => .ax | 1 => .cx | 2 => .dx | 3 => .bx | 4 => .sp | 5 => .bp | 6 => .si | _ => .di

/-- The mod field, bits 7:6 of a ModR/M byte (R83). -/
def modrmMod (m : Byte) : BitVec 2 := m.extractLsb' 6 2

/-- The reg field, bits 5:3 of a ModR/M byte (R83). -/
def modrmReg (m : Byte) : BitVec 3 := m.extractLsb' 3 3

/-- The rm field, bits 2:0 of a ModR/M byte (R83). -/
def modrmRm (m : Byte) : BitVec 3 := m.extractLsb' 0 3

/-- The register field `r` of an opcode byte, bits 2:0 (R81). -/
def opcodeR (opc : Byte) : BitVec 3 := opc.extractLsb' 0 3

/-- A word from its two bytes (20_memory.md R53: the byte at the lower address is bits 7:0). -/
def wordOf (lo hi : Byte) : Word := hi ++ lo

/-! ### The table -/

/-- What follows an opcode byte and how it becomes an instruction: the formats of R81 with the addressing-mode tags
of R88 applied. A function field takes the field or immediate the resolver produces (R89). -/
inductive Format where
  /-- OP and OPR: no operand byte. -/
  | op (i : Instr)
  /-- OP-IB and OPR-IB: one immediate byte. -/
  | ib (f : Byte → Instr)
  /-- OP-IW and OPR-IW: one immediate word, low byte first. -/
  | iw (f : Word → Instr)
  /-- OP-MRM: a ModR/M byte whose reg and rm fields (in this order) name registers. -/
  | mrm (f : BitVec 3 → BitVec 3 → Instr)
  /-- OP-MRM-EXT of D3 and FE: a ModR/M byte whose reg field must be `e` (R93). -/
  | ext (e : BitVec 3) (f : BitVec 3 → Instr)
  /-- 8C and 8E: a ModR/M byte whose reg field names CS (1) or DS (3) (R85). -/
  | sreg (cs ds : BitVec 3 → Instr)

/-- One row of the decode table: the opcode bytes `b` with `b AND mask = value`, and their format. -/
structure OpcodeRow where
  mask : Byte
  value : Byte
  format : Byte → Format

/-- The row of a byte ALU operation's three forms `r/m8, r8`, `r8, r/m8` and `AL, imm8` (R91, R82). -/
def aluRows (base : Byte) (rmR rRm : Reg8 → Reg8 → Instr) (alImm : Byte → Instr) : List OpcodeRow :=
  [ ⟨0xFF, base, fun _ => .mrm fun reg rm => rmR (Reg8.ofField rm) (Reg8.ofField reg)⟩,
    ⟨0xFF, base + 2, fun _ => .mrm fun reg rm => rRm (Reg8.ofField reg) (Reg8.ofField rm)⟩,
    ⟨0xFF, base + 4, fun _ => .ib alImm⟩ ]

/-- 41_arith_logic.md: the byte ALU operations, DAA, DEC, RCL and INC. -/
def arithRows : List OpcodeRow :=
  aluRows 0x00 .addRm8R8 .addR8Rm8 .addAlImm8 ++
  aluRows 0x08 .orRm8R8 .orR8Rm8 .orAlImm8 ++
  aluRows 0x10 .adcRm8R8 .adcR8Rm8 .adcAlImm8 ++
  aluRows 0x20 .andRm8R8 .andR8Rm8 .andAlImm8 ++
  aluRows 0x28 .subRm8R8 .subR8Rm8 .subAlImm8 ++
  aluRows 0x30 .xorRm8R8 .xorR8Rm8 .xorAlImm8 ++
  aluRows 0x38 .cmpRm8R8 .cmpR8Rm8 .cmpAlImm8 ++
  [ ⟨0xFF, 0x27, fun _ => .op .daa⟩,
    ⟨0xF8, 0x48, fun opc => .op (.decR16 (Reg16.ofField (opcodeR opc)))⟩,
    ⟨0xFF, 0xD3, fun _ => .ext 2 fun rm => .rclRm16Cl (Reg16.ofField rm)⟩,
    ⟨0xFF, 0xFE, fun _ => .ext 0 fun rm => .incRm8 (Reg8.ofField rm)⟩ ]

/-- 42_string.md. -/
def stringRows : List OpcodeRow :=
  [ ⟨0xFF, 0xA4, fun _ => .op .movsb⟩,
    ⟨0xFF, 0xA5, fun _ => .op .movsw⟩,
    ⟨0xFF, 0xAA, fun _ => .op .stosb⟩,
    ⟨0xFF, 0xAB, fun _ => .op .stosw⟩,
    ⟨0xFF, 0xAC, fun _ => .op .lodsb⟩,
    ⟨0xFF, 0xAD, fun _ => .op .lodsw⟩ ]

/-- 43_stack.md. -/
def stackRows : List OpcodeRow :=
  [ ⟨0xF8, 0x50, fun opc => .op (.pushR16 (Reg16.ofField (opcodeR opc)))⟩,
    ⟨0xF8, 0x58, fun opc => .op (.popR16 (Reg16.ofField (opcodeR opc)))⟩,
    ⟨0xFF, 0x60, fun _ => .op .pusha⟩,
    ⟨0xFF, 0x9C, fun _ => .op .pushf⟩,
    ⟨0xFF, 0x9D, fun _ => .op .popf⟩ ]

/-- 44_control.md and 45_interrupt.md. -/
def controlRows : List OpcodeRow :=
  [ ⟨0xFF, 0x72, fun _ => .ib .jbRel8⟩,
    ⟨0xFF, 0x74, fun _ => .ib .jzRel8⟩,
    ⟨0xFF, 0x75, fun _ => .ib .jnzRel8⟩,
    ⟨0xFF, 0x76, fun _ => .ib .jbeRel8⟩,
    ⟨0xFF, 0xC3, fun _ => .op .ret⟩,
    ⟨0xFF, 0xCD, fun _ => .ib .intImm8⟩,
    ⟨0xFF, 0xE2, fun _ => .ib .loopRel8⟩,
    ⟨0xFF, 0xE8, fun _ => .iw .callRel16⟩,
    ⟨0xFF, 0xEB, fun _ => .ib .jmpRel8⟩ ]

/-- 46_move.md. -/
def moveRows : List OpcodeRow :=
  [ ⟨0xFF, 0x88, fun _ => .mrm fun reg rm => .movRm8R8 (Reg8.ofField rm) (Reg8.ofField reg)⟩,
    ⟨0xFF, 0x89, fun _ => .mrm fun reg rm => .movRm16R16 (Reg16.ofField rm) (Reg16.ofField reg)⟩,
    ⟨0xFF, 0x8A, fun _ => .mrm fun reg rm => .movR8Rm8 (Reg8.ofField reg) (Reg8.ofField rm)⟩,
    ⟨0xFF, 0x8B, fun _ => .mrm fun reg rm => .movR16Rm16 (Reg16.ofField reg) (Reg16.ofField rm)⟩,
    ⟨0xFF, 0x8C, fun _ => .sreg (fun rm => .movRm16Cs (Reg16.ofField rm)) (fun rm => .movRm16Ds (Reg16.ofField rm))⟩,
    ⟨0xFF, 0x8E, fun _ => .sreg (fun rm => .movCsRm16 (Reg16.ofField rm)) (fun rm => .movDsRm16 (Reg16.ofField rm))⟩,
    ⟨0xF8, 0xB0, fun opc => .ib (.movR8Imm8 (Reg8.ofField (opcodeR opc)))⟩,
    ⟨0xF8, 0xB8, fun opc => .iw (.movR16Imm16 (Reg16.ofField (opcodeR opc)))⟩ ]

/-- The decode table (R91): a constant, not state (10_state.md R37). -/
def opcodeRows : List OpcodeRow := arithRows ++ stringRows ++ stackRows ++ controlRows ++ moveRows

/-- R101: the descriptor of an opcode byte; `none` where its shape is "unassigned" (R92). -/
def lookup (opc : Byte) : Option Format :=
  (opcodeRows.find? fun row => opc &&& row.mask == row.value).map fun row => row.format opc

/-- How many bytes the resolver consumes after the opcode byte (R88). -/
def Format.operandBytes : Format → Nat
  | .op _ => 0
  | .ib _ => 1
  | .iw _ => 2
  | .mrm _ => 1
  | .ext _ _ => 1
  | .sreg _ _ => 1

/-- The bytes consumed after opcode byte `opc`: known from the opcode byte alone (R95). An unassigned byte ends the
run before anything is consumed (R101). -/
def operandBytes (opc : Byte) : Nat :=
  match lookup opc with
  | none => 0
  | some fmt => fmt.operandBytes

/-! ### The decoder -/

/-- Why bytes are no instruction. -/
inductive DecodeError where
  /-- The opcode byte is unassigned (R92). -/
  | unassigned (opc : Byte)
  /-- The ModR/M byte has mod ≠ 3 (R84). -/
  | mode (m : Byte)
  /-- The reg field names no segment register the subset maps, or is not the required extension (R85, R93). -/
  | field (m : Byte)
  /-- The list ends before the instruction does (it never does in a step, which fetches what R95 asks for). -/
  | truncated
  deriving DecidableEq, Repr

/-- The instruction of a format and a ModR/M byte; mod is checked first, then the reg field (60_exceptions.md R264). -/
def decodeModrm (fmt : Format) (m : Byte) : Except DecodeError Instr :=
  if modrmMod m ≠ 3 then .error (.mode m)
  else
    match fmt with
    | .mrm f => .ok (f (modrmReg m) (modrmRm m))
    | .ext e f => if modrmReg m = e then .ok (f (modrmRm m)) else .error (.field m)
    | .sreg cs ds =>
      if modrmReg m = 1 then .ok (cs (modrmRm m))
      else if modrmReg m = 3 then .ok (ds (modrmRm m))
      else .error (.field m)
    | _ => .error .truncated

/-- Decode the operand bytes of a format (R89). -/
def decodeOperands (fmt : Format) (rest : List Byte) : Except DecodeError (Instr × List Byte) :=
  match fmt, rest with
  | .op i, r => .ok (i, r)
  | .ib f, b :: r => .ok (f b, r)
  | .iw f, lo :: hi :: r => .ok (f (wordOf lo hi), r)
  | .mrm f, m :: r => (decodeModrm (.mrm f) m).map fun i => (i, r)
  | .ext e f, m :: r => (decodeModrm (.ext e f) m).map fun i => (i, r)
  | .sreg cs ds, m :: r => (decodeModrm (.sreg cs ds) m).map fun i => (i, r)
  | _, _ => .error .truncated

/-- The decoder, total on any bytes: one instruction from the front of the list and the bytes after it. -/
def decode : List Byte → Except DecodeError (Instr × List Byte)
  | [] => .error .truncated
  | opc :: rest =>
    match lookup opc with
    | none => .error (.unassigned opc)
    | some fmt => decodeOperands fmt rest

/-! ### The encoder -/

/-- The 3-bit field of a byte register (10_state.md R23). -/
def Reg8.field : Reg8 → BitVec 3
  | .al => 0 | .cl => 1 | .dl => 2 | .bl => 3 | .ah => 4 | .ch => 5 | .dh => 6 | .bh => 7

/-- The 3-bit field of a word register (10_state.md R23). -/
def Reg16.field : Reg16 → BitVec 3
  | .ax => 0 | .cx => 1 | .dx => 2 | .bx => 3 | .sp => 4 | .bp => 5 | .si => 6 | .di => 7

/-- A register-direct ModR/M byte: `11 : reg : rm` (R83, R84). -/
def modrmByte (reg rm : BitVec 3) : Byte := 0b11#2 ++ reg ++ rm

/-- An opcode byte with a register field: `base[7:3] : r` (R81). -/
def opcodeWithR (base : BitVec 5) (r : BitVec 3) : Byte := base ++ r

/-- Bits 7:0 of a word. -/
def lowByte (w : Word) : Byte := w.extractLsb' 0 8

/-- Bits 15:8 of a word. -/
def highByte (w : Word) : Byte := w.extractLsb' 8 8

/-- The bytes of an instruction, first byte first (R81, R91). -/
def encode : Instr → List Byte
  | .addRm8R8 rm reg => [0x00, modrmByte reg.field rm.field]
  | .addR8Rm8 reg rm => [0x02, modrmByte reg.field rm.field]
  | .addAlImm8 imm => [0x04, imm]
  | .orRm8R8 rm reg => [0x08, modrmByte reg.field rm.field]
  | .orR8Rm8 reg rm => [0x0A, modrmByte reg.field rm.field]
  | .orAlImm8 imm => [0x0C, imm]
  | .adcRm8R8 rm reg => [0x10, modrmByte reg.field rm.field]
  | .adcR8Rm8 reg rm => [0x12, modrmByte reg.field rm.field]
  | .adcAlImm8 imm => [0x14, imm]
  | .andRm8R8 rm reg => [0x20, modrmByte reg.field rm.field]
  | .andR8Rm8 reg rm => [0x22, modrmByte reg.field rm.field]
  | .andAlImm8 imm => [0x24, imm]
  | .subRm8R8 rm reg => [0x28, modrmByte reg.field rm.field]
  | .subR8Rm8 reg rm => [0x2A, modrmByte reg.field rm.field]
  | .subAlImm8 imm => [0x2C, imm]
  | .xorRm8R8 rm reg => [0x30, modrmByte reg.field rm.field]
  | .xorR8Rm8 reg rm => [0x32, modrmByte reg.field rm.field]
  | .xorAlImm8 imm => [0x34, imm]
  | .cmpRm8R8 rm reg => [0x38, modrmByte reg.field rm.field]
  | .cmpR8Rm8 reg rm => [0x3A, modrmByte reg.field rm.field]
  | .cmpAlImm8 imm => [0x3C, imm]
  | .daa => [0x27]
  | .decR16 r => [opcodeWithR 0b01001 r.field]
  | .pushR16 r => [opcodeWithR 0b01010 r.field]
  | .popR16 r => [opcodeWithR 0b01011 r.field]
  | .pusha => [0x60]
  | .jbRel8 d => [0x72, d]
  | .jzRel8 d => [0x74, d]
  | .jnzRel8 d => [0x75, d]
  | .jbeRel8 d => [0x76, d]
  | .movRm8R8 rm reg => [0x88, modrmByte reg.field rm.field]
  | .movRm16R16 rm reg => [0x89, modrmByte reg.field rm.field]
  | .movR8Rm8 reg rm => [0x8A, modrmByte reg.field rm.field]
  | .movR16Rm16 reg rm => [0x8B, modrmByte reg.field rm.field]
  | .movRm16Cs rm => [0x8C, modrmByte 1 rm.field]
  | .movRm16Ds rm => [0x8C, modrmByte 3 rm.field]
  | .movCsRm16 rm => [0x8E, modrmByte 1 rm.field]
  | .movDsRm16 rm => [0x8E, modrmByte 3 rm.field]
  | .pushf => [0x9C]
  | .popf => [0x9D]
  | .movsb => [0xA4]
  | .movsw => [0xA5]
  | .stosb => [0xAA]
  | .stosw => [0xAB]
  | .lodsb => [0xAC]
  | .lodsw => [0xAD]
  | .movR8Imm8 r imm => [opcodeWithR 0b10110 r.field, imm]
  | .movR16Imm16 r imm => [opcodeWithR 0b10111 r.field, lowByte imm, highByte imm]
  | .ret => [0xC3]
  | .intImm8 n => [0xCD, n]
  | .rclRm16Cl rm => [0xD3, modrmByte 2 rm.field]
  | .loopRel8 d => [0xE2, d]
  | .callRel16 disp => [0xE8, lowByte disp, highByte disp]
  | .jmpRel8 d => [0xEB, d]
  | .incRm8 rm => [0xFE, modrmByte 0 rm.field]

/-! ### The host's numbering of a table row's bits -/

/-- The three bytes (the longest instruction, R95) of a word `w` of `nbits` bits: the first byte is bits 7..0, the second
bits 15..8; every bit above `nbits` is 0. spec/opcode_table.json writes a two-byte row with its opcode byte first ("00C0"),
which as one number has the opcode byte in bits 15..8: a 16-bit word whose bits 7..0 are no assigned opcode byte is
therefore read in that order (log entry 18). -/
def tableBytes (nbits w : Nat) : List Byte :=
  let v := w % 2 ^ nbits
  let low := BitVec.ofNat 8 v
  let next := BitVec.ofNat 8 (v / 2 ^ 8)
  if nbits = 16 && (lookup low).isNone then [next, low, 0] else [low, next, BitVec.ofNat 8 (v / 2 ^ 16)]

/-- The instruction this decoder reads from a table word. -/
def decodeTableWord (nbits w : Nat) : Option Instr :=
  match decode (tableBytes nbits w) with
  | .ok (i, _) => some i
  | .error _ => none

end Sys2Proof
end

