-- ==== Sys2Proof/Config.lean ====
section
/-! DEFINITION. What the implementation fixes, and the one source of free values.
The launch parameters a model takes as arguments (00_scope.md R5) stand in Machine/State.lean (`RunParams`) and
Machine/Launch.lean (`LaunchParams`). -/

namespace Sys2Proof

/-- `MEM_SIZE` = 524288 = 0x80000 bytes (00_scope.md R5, 10_state.md R34). UNVERIFIED: the source's literals are
unaudited (D31); log entry 12. -/
abbrev Config.memSize : Nat := 0x80000

/-- The `k`-th draw of a run (00_scope.md R12): a bit no source fixes. It has no body, so nothing can be proved
of its value. Log entry 7. -/
opaque Config.freeBit : Nat → Bool

end Sys2Proof
end

