-- ==== Sys2Proof/Machine/State.lean ====
section
/-! DEFINITION. The machine's state as plain data: everything 10_state.md R20 and R39 give it, the launch parameters
that a step reads (00_scope.md R5), and the model's own counter of draws (R12). Also the reasons a step can stop,
and the state after reset. -/

namespace Sys2Proof.Machine

/-- The fatal codes with the info each records (60_exceptions.md R260). A fatal condition ends the run. All are safe:
the model stops where the spec says the run ends. -/
inductive Fatal where
  /-- UNASSIGNED_OPCODE: the fetched opcode byte has no descriptor; raised by the fetch (30_encoding.md R101). Safe. -/
  | unassignedOpcode (opc : Byte)
  /-- MODRM_MODE: a consumed ModR/M byte has mod ≠ 3; raised by the resolver (R84). Safe. -/
  | modrmMode (modrm : Byte)
  /-- MODRM_FIELD: the reg field is no mapped segment, or not the group's extension; raised by the resolver (R85, R93). Safe. -/
  | modrmField (modrm : Byte)
  /-- SELECTOR: an unknown behaviour selector. Nothing raises it: every selector of the table is known (R90, R260); kept so
  that the code list is the spec's. Safe. -/
  | selector (name : String)
  /-- ADDRESS_RANGE: a byte access at a linear address `a` ≥ MEM_SIZE; raised by every memory access (20_memory.md R52, R54). Safe. -/
  | addressRange (a : Nat)
  /-- OFFSET_WRAP: a word at offset 0xFFFF, an operand byte past offset 0xFFFF, or a string offset past 0xFFFF; records
  the segment value and the offset (R55, R56, 45_interrupt.md R224). Safe. -/
  | offsetWrap (seg : Word) (off : Nat)
  /-- BAD_INTERRUPT: INT with a number other than 0x10 and 0x21; records the number and AH (R226). Safe. -/
  | badInterrupt (n f : Byte)
  /-- BAD_BIOS_FUNCTION: an unsupported function of INT 0x10 or 0x21; records the number and AH (R226). Safe. -/
  | badBiosFunction (n f : Byte)
  deriving DecidableEq, Repr

/-- The faults of a step. -/
inductive Fault where
  /-- The run ends with `Fatal(code, info)`; the record also holds the CS and the IP0 of the instruction in whose step it
  arose (60_exceptions.md R265). Raised by the fetch and by a meaning through `raiseFatal`. No state is left: R265 defines
  none. Safe (log entry 1). -/
  | fatal (code : Fatal) (cs ip0 : Word)
  deriving DecidableEq, Repr

/-- The refusals of a step. -/
inductive Refusal where
  /-- An instruction without a meaning yet; raised only by a refused arm of `exec` (there is none). Safe. -/
  | notModelled (mnemonic : String)
  /-- RUN is Halted, and "from Halted there is no step" (30_encoding.md R98); raised by `step` alone, for no instruction.
  Safe (log entry 3). -/
  | halted
  deriving DecidableEq, Repr

/-- The outcome that ended a run (10_state.md R35). -/
inductive RunOutcome where
  /-- A normal termination with an 8-bit status (60_exceptions.md R261). -/
  | exit (status : Byte)
  /-- TICKS passed the budget (R262). -/
  | budgetExhausted
  /-- A fatal end (R260). No step of the model produces a state that holds it: such a step answers a fault, because R265
  defines no state after it (log entry 1). -/
  | fatal (code : Fatal)
  deriving DecidableEq, Repr

/-- RUN: "two states: Running, Halted (no further transition out)" (10_state.md R35). -/
inductive RunState where
  | running
  | halted (o : RunOutcome)
  deriving DecidableEq, Repr

/-- The OPEN launch parameters that a step reads (00_scope.md R5). No step changes them (log entry 5). -/
structure RunParams where
  /-- TICK_BUDGET (30_encoding.md R99). -/
  tickBudget : Nat
  /-- PSTR_REG: the register that holds the string offset of the print-string service (45_interrupt.md R224). R5 says "the
  16-bit register" and the source "a pointer register", which counts IP too (10_state.md R24). DESIGN CHOICE (log entry 19),
  unsafe: it is one of the eight R16[i], never IP and never a segment register. -/
  pstrReg : Reg16
  /-- STRING_SENTINEL: the byte that ends a printed string (R224). -/
  sentinel : Byte
  deriving DecidableEq, Repr

/-- FLAGS, "one 16-bit word" (10_state.md R29), held bit by bit: the nine named flags and the seven unused bits, which are
stored without meaning (R33). The word is `Flags.toWord` (Machine/Flags.lean), where the bit positions stand. The bits are
held apart because some are draws (R12), whose value nothing can compute: the others stay computable beside them. -/
structure Flags where
  cf : Bool
  bit1 : Bool
  pf : Bool
  bit3 : Bool
  af : Bool
  bit5 : Bool
  zf : Bool
  sf : Bool
  tf : Bool
  intf : Bool
  df : Bool
  of : Bool
  bit12 : Bool
  bit13 : Bool
  bit14 : Bool
  bit15 : Bool
  deriving DecidableEq, Repr

/-- FLAGS = 0x0200 (10_state.md R40): IF = 1, every other bit 0. -/
def Flags.atReset : Flags where
  cf := false
  bit1 := false
  pf := false
  bit3 := false
  af := false
  bit5 := false
  zf := false
  sf := false
  tf := false
  intf := true
  df := false
  of := false
  bit12 := false
  bit13 := false
  bit14 := false
  bit15 := false

/-- MEM as the bytes that are not 0, by rising address (10_state.md R34); an address not listed reads 0, what R34 and R40
give every byte at reset. -/
abbrev Memory := List Host.Cell

/-- The state record (10_state.md R20), the output stream kept beside it (R39), the launch parameters, and the counter of
draws (log entry 7). -/
structure State where
  ax : Word
  cx : Word
  dx : Word
  bx : Word
  sp : Word
  bp : Word
  si : Word
  di : Word
  ip : Word
  es : Word
  cs : Word
  ss : Word
  ds : Word
  flags : Flags
  mem : Memory
  run : RunState
  ticks : Nat
  output : List Byte
  params : RunParams
  draws : Nat
  deriving DecidableEq, Repr

/-- The machine right after reset (10_state.md R40, 70_reset_and_hazards.md R290) with no program loaded: FLAGS = 0x0200,
MEM all 0, RUN = Running, TICKS = 0, no output, as the spec states. The 13 registers and the launch parameters are OPEN;
DESIGN CHOICE: the values of the spec's own test launch (D38), log entries 4 and 5. `Machine.launch` is the reset for
every value of the parameters. -/
def State.reset : State where
  ax := 0
  cx := 0
  dx := 0
  bx := 0
  sp := 0xFFFE
  bp := 0
  si := 0
  di := 0
  ip := 0x0100
  es := 0
  cs := 0
  ss := 0
  ds := 0
  flags := Flags.atReset
  mem := []
  run := .running
  ticks := 0
  output := []
  params := { tickBudget := 1000, pstrReg := .dx, sentinel := 0x24 }
  draws := 0

end Sys2Proof.Machine
end

