-- ==== Sys2Proof/Machine/Ops.lean ====
section
/-! DEFINITION. The named operations over memory and the run: byte memory and its canonical form, the address
translator and the access primitives (20_memory.md), the fetch and the resolver's consumption (30_encoding.md R89,
R100 to R102), how a fatal condition and a termination end the run (60_exceptions.md R261, R265), the instruction
cycle around a body (R103 to R106), draws (00_scope.md R12), and the stack (43_stack.md R180, R181). -/

namespace Sys2Proof.Machine

/-! ### Byte memory -/

/-- The byte at `a`: 0 where nothing is listed (10_state.md R34, R40). The search ends at the first larger address. -/
def Memory.read : Memory → Nat → Byte
  | [], _ => 0
  | (k, b) :: rest, a => if a < k then 0 else if a = k then b else Memory.read rest a

/-- Store `v` at `a`, keeping the canonical form: storing 0 removes the entry. -/
def Memory.write : Memory → Nat → Byte → Memory
  | [], a, v => if v = 0 then [] else [(a, v)]
  | (k, b) :: rest, a, v =>
    if a < k then (if v = 0 then (k, b) :: rest else (a, v) :: (k, b) :: rest)
    else if a = k then (if v = 0 then rest else (a, v) :: rest)
    else (k, b) :: Memory.write rest a v

/-- The entries rise strictly from `lo`, none holds 0, and every address exists (below MEM_SIZE). -/
def Memory.wfFrom (lo : Nat) : Memory → Bool
  | [] => true
  | (k, b) :: rest => decide (lo ≤ k) && decide (b ≠ 0) && decide (k < Config.memSize) && Memory.wfFrom (k + 1) rest

/-- The canonical form of memory. -/
def Memory.wf (m : Memory) : Bool := Memory.wfFrom 0 m

/-- Store bytes at `a`, `a + 1`, ... (the loader's copy, R68). -/
def Memory.writeBytes (m : Memory) (a : Nat) : List Byte → Memory
  | [] => m
  | b :: rest => Memory.writeBytes (m.write a b) (a + 1) rest

/-! ### Address translation and accesses -/

/-- R51: the linear address of segment value `s` and offset `o`, never masked. -/
def lin (s o : Word) : Nat := s.toNat * 16 + o.toNat

/-- R52: `MemRead(a, 1)`. -/
def memRead8 (m : Memory) (a : Nat) : Except Fatal Byte :=
  if a ≥ Config.memSize then .error (.addressRange a) else .ok (m.read a)

/-- R52: `MemWrite(a, 1, v)`. -/
def memWrite8 (m : Memory) (a : Nat) (v : Byte) : Except Fatal Memory :=
  if a ≥ Config.memSize then .error (.addressRange a) else .ok (m.write a v)

/-- R54: `MemRead(a, 2)`, low byte at `a`. -/
def memRead16 (m : Memory) (a : Nat) : Except Fatal Word :=
  if a ≥ Config.memSize then .error (.addressRange a)
  else if a + 1 ≥ Config.memSize then .error (.addressRange (a + 1))
  else .ok (wordOf (m.read a) (m.read (a + 1)))

/-- R54: `MemWrite(a, 2, v)`, both addresses checked before either byte is written. -/
def memWrite16 (m : Memory) (a : Nat) (v : Word) : Except Fatal Memory :=
  if a ≥ Config.memSize then .error (.addressRange a)
  else if a + 1 ≥ Config.memSize then .error (.addressRange (a + 1))
  else .ok ((m.write a (lowByte v)).write (a + 1) (highByte v))

/-- R55: `SegRead(s, o, 1)`. -/
def segRead8 (m : Memory) (s o : Word) : Except Fatal Byte := memRead8 m (lin s o)

/-- R55: `SegRead(s, o, 2)`. -/
def segRead16 (m : Memory) (s o : Word) : Except Fatal Word :=
  if o = 0xFFFF then .error (.offsetWrap s o.toNat) else memRead16 m (lin s o)

/-- R55: `SegWrite(s, o, 1, v)`. -/
def segWrite8 (m : Memory) (s o : Word) (v : Byte) : Except Fatal Memory := memWrite8 m (lin s o) v

/-- R55: `SegWrite(s, o, 2, v)`. -/
def segWrite16 (m : Memory) (s o v : Word) : Except Fatal Memory :=
  if o = 0xFFFF then .error (.offsetWrap s o.toNat) else memWrite16 m (lin s o) v

/-! ### Named updates -/

/-- Add `n` to IP modulo 2^16 (10_state.md R27). -/
def State.advanceIp (s : State) (n : Nat) : State := { s with ip := s.ip + BitVec.ofNat 16 n }

/-- Replace MEM. -/
def State.setMem (s : State) (m : Memory) : State := { s with mem := m }

/-! ### Fetch and resolution -/

/-- R89: `ConsumeByte`. The byte is read at IP + 1, then IP advances; past offset 0xFFFF it is OFFSET_WRAP (R56). -/
def consumeByte (s : State) : Except Fatal (Byte × State) :=
  if s.ip = 0xFFFF then .error (.offsetWrap s.cs s.ip.toNat)
  else (memRead8 s.mem (lin s.cs (s.ip + 1))).map fun b => (b, s.advanceIp 1)

/-- Consume `n` bytes in order. -/
def consumeBytes : Nat → State → Except Fatal (List Byte × State)
  | 0, s => .ok ([], s)
  | n + 1, s =>
    match consumeByte s with
    | .error c => .error c
    | .ok (b, s1) =>
      match consumeBytes n s1 with
      | .error c => .error c
      | .ok (bs, s2) => .ok (b :: bs, s2)

/-- The fatal code of a refused decoding (60_exceptions.md R260). In a step `truncated` cannot arise, since the bytes of
R95 have been consumed; UNASSIGNED_OPCODE stands there only to make the function total. -/
def DecodeError.toFatal (opc : Byte) : DecodeError → Fatal
  | .unassigned b => .unassignedOpcode b
  | .mode m => .modrmMode m
  | .field m => .modrmField m
  | .truncated => .unassignedOpcode opc

/-- R100 to R102: fetch the opcode byte at `lin(CS, IP)`, look it up, and consume and decode its operand bytes. The order
of checks is that of 60_exceptions.md R264: an unassigned opcode consumes nothing, and a ModR/M byte is checked after it
has been consumed. The state is read only; `cycle` advances IP over the same bytes. -/
def fetch (s : State) : Except Fatal Instr :=
  match memRead8 s.mem (lin s.cs s.ip) with
  | .error c => .error c
  | .ok opc =>
    match consumeBytes (operandBytes opc) s with
    | .error c => .error c
    | .ok (bs, _) =>
      match decode (opc :: bs) with
      | .error e => .error (DecodeError.toFatal opc e)
      | .ok (i, _) => .ok i

/-! ### How a run ends, and the instruction cycle -/

/-- `raise Fatal(code, info)` (00_scope.md R10, 30_encoding.md R106, 60_exceptions.md R265): the ONE way a fatal condition
is taken. This hardware has no trap entry: nothing is saved, no vector is read, the run ends. `s` is the state in which
the instruction was fetched, so its CS and IP are the record's. -/
def raiseFatal (code : Fatal) (s : State) : Host.Outcome State Fault Refusal := .fault (.fatal code s.cs s.ip)

/-- `terminate(status)` (R10, R105, R261): RUN becomes Halted(Exit(status)); IP and TICKS stay as the body left them. -/
def State.terminate (s : State) (status : Byte) : State := { s with run := .halted (.exit status) }

/-- R99, R262: RUN becomes Halted(BudgetExhausted), nothing else changes. -/
def State.exhaust (s : State) : State := { s with run := .halted .budgetExhausted }

/-- R104: the end of the cycle, after a body that returns. -/
def State.endCycle (s : State) : State := { s with ip := s.ip + 1, ticks := s.ticks + 1 }

/-- How an instruction body ends when it raises nothing (R103, R105). -/
inductive BodyEnd where
  /-- The body returned; the cycle goes on. -/
  | returned (s : State)
  /-- The body called `terminate(status)`. -/
  | terminated (status : Byte) (s : State)

/-- One instruction of `len` bytes: IP advances over the operand bytes before the body runs (R89, R103), and after a body
that returns IP and TICKS advance by 1 (R104). A body that terminates gets no advance (R105). -/
def cycleOrExit (len : Nat) (body : State → Except Fatal BodyEnd) (s : State) : Host.Outcome State Fault Refusal :=
  match body (s.advanceIp (len - 1)) with
  | .error c => raiseFatal c s
  | .ok (.returned t) => .next t.endCycle
  | .ok (.terminated status t) => .next (t.terminate status)

/-- `cycleOrExit` for a body that may raise and otherwise returns. -/
def cycle (len : Nat) (body : State → Except Fatal State) (s : State) : Host.Outcome State Fault Refusal :=
  cycleOrExit len (fun t => (body t).map .returned) s

/-- `cycleOrExit` for a body that always returns. -/
def cyclePure (len : Nat) (body : State → State) (s : State) : Host.Outcome State Fault Refusal :=
  cycle len (fun t => .ok (body t)) s

/-! ### Draws -/

/-- The bit that the `k`-th draw from here on takes (00_scope.md R12). -/
def State.drawn (s : State) (k : Nat) : Bool := Config.freeBit (s.draws + k)

/-- `n` draws have been taken: the next draw reads a fresh place. -/
def State.drew (s : State) (n : Nat) : State := { s with draws := s.draws + n }

/-! ### The stack -/

/-- R180: `Push16(v)`. -/
def push16 (v : Word) (s : State) : Except Fatal State :=
  (segWrite16 s.mem s.ss (s.sp - 2) v).map fun m => { s with sp := s.sp - 2, mem := m }

/-- R181: `Pop16()`. -/
def pop16 (s : State) : Except Fatal (Word × State) :=
  (segRead16 s.mem s.ss s.sp).map fun v => (v, { s with sp := s.sp + 2 })

end Sys2Proof.Machine
end

