-- ==== Sys2Proof/Machine/Flags.lean ====
section
/-! DEFINITION. The FLAGS word (10_state.md R29 to R33) and every flag computation of the ALU (41_arith_logic.md R120 to
R122, R130 to R132). -/

namespace Sys2Proof.Machine

/-- The nine flags of FLAGS (10_state.md R29). -/
inductive Flag where
  | cf | pf | af | zf | sf | tf | intf | df | of
  deriving DecidableEq, Repr

/-- FLAGS as one 16-bit word, bit 0 first: the bit positions of R29. -/
def Flags.toWord (f : Flags) : Word :=
  BitVec.ofBoolListLE
    [f.cf, f.bit1, f.pf, f.bit3, f.af, f.bit5, f.zf, f.sf, f.tf, f.intf, f.df, f.of, f.bit12, f.bit13, f.bit14, f.bit15]

/-- FLAGS from one 16-bit word, all 16 bits (R33: POPF writes the unused bits too). -/
def Flags.ofWord (w : Word) : Flags where
  cf := w.getLsbD 0
  bit1 := w.getLsbD 1
  pf := w.getLsbD 2
  bit3 := w.getLsbD 3
  af := w.getLsbD 4
  bit5 := w.getLsbD 5
  zf := w.getLsbD 6
  sf := w.getLsbD 7
  tf := w.getLsbD 8
  intf := w.getLsbD 9
  df := w.getLsbD 10
  of := w.getLsbD 11
  bit12 := w.getLsbD 12
  bit13 := w.getLsbD 13
  bit14 := w.getLsbD 14
  bit15 := w.getLsbD 15

/-- `FLAGS.f` (00_scope.md R8). -/
def State.flag (s : State) : Flag → Bool
  | .cf => s.flags.cf | .pf => s.flags.pf | .af => s.flags.af | .zf => s.flags.zf | .sf => s.flags.sf
  | .tf => s.flags.tf | .intf => s.flags.intf | .df => s.flags.df | .of => s.flags.of

/-- The six status flags (R29). -/
structure StatusFlags where
  cf : Bool
  pf : Bool
  af : Bool
  zf : Bool
  sf : Bool
  of : Bool
  deriving DecidableEq, Repr

/-- Write the six status flags; TF, IF, DF and the unused bits keep their values (R31, R33). -/
def State.setStatus (s : State) (x : StatusFlags) : State :=
  { s with flags := { s.flags with cf := x.cf, pf := x.pf, af := x.af, zf := x.zf, sf := x.sf, of := x.of } }

/-- Write CF and OF; every other bit of FLAGS keeps its value (R31, the row of RCL). -/
def State.setCarryOverflow (s : State) (cf of : Bool) : State :=
  { s with flags := { s.flags with cf := cf, of := of } }

/-! ### Result flags -/

/-- How many of the 8 bits of `b` are 1. -/
def onesCount (b : Byte) : Nat := (List.range 8).countP fun i => b.getLsbD i

/-- `parity(b)`: an even number of 1 bits (00_scope.md R7, 10_state.md R30). -/
def parity (b : Byte) : Bool := onesCount b % 2 == 0

/-- The carry-in as a number. -/
def carryIn (c : Bool) : Nat := if c then 1 else 0

/-! ### The byte ALU -/

/-- A byte result with the six status flags. -/
structure AluResult where
  result : Byte
  status : StatusFlags
  deriving DecidableEq, Repr

/-- R120: `Add8(a, b, c)`. -/
def add8 (a b : Byte) (c : Bool) : AluResult :=
  let sum := a.toNat + b.toNat + carryIn c
  let r := BitVec.ofNat 8 sum
  { result := r
    status :=
      { cf := decide (sum > 0xFF)
        pf := parity r
        af := decide (a.toNat % 16 + b.toNat % 16 + carryIn c > 0x0F)
        zf := decide (r = 0)
        sf := r.getLsbD 7
        of := decide ((a ^^^ r) &&& (b ^^^ r) &&& 0x80#8 ≠ 0) } }

/-- R121: `Sub8(a, b)`; there is no borrow-in. -/
def sub8 (a b : Byte) : AluResult :=
  let r := a - b
  { result := r
    status :=
      { cf := decide (a.toNat < b.toNat)
        pf := parity r
        af := decide (a.toNat % 16 < b.toNat % 16)
        zf := decide (r = 0)
        sf := r.getLsbD 7
        of := decide ((a ^^^ b) &&& (a ^^^ r) &&& 0x80#8 ≠ 0) } }

/-- R122: the flags of `Logic8(r)`; AF is the draw `af`. -/
def logicStatus (r : Byte) (af : Bool) : StatusFlags :=
  { cf := false, pf := parity r, af := af, zf := decide (r = 0), sf := r.getLsbD 7, of := false }

/-! ### Decimal adjust -/

/-- R130: whether the low nibble is corrected, from the original AL and AF. -/
def daaLow (al : Byte) (af : Bool) : Bool := decide (al.toNat % 16 > 9) || af

/-- R130: whether the high digit is corrected, from the original AL and CF. -/
def daaHigh (al : Byte) (cf : Bool) : Bool := decide (al.toNat > 0x99) || cf

/-- R130: the adjusted AL; both additions wrap modulo 256. -/
def daaResult (al : Byte) (af cf : Bool) : Byte :=
  let low := if daaLow al af then al + 0x06 else al
  if daaHigh al cf then low + 0x60 else low

/-! ### Rotate left through carry -/

/-- R131: the loop of RCL, `n` times: the old bit 15 goes to CF and the old CF to bit 0. -/
def rcl16 : Nat → Word → Bool → Word × Bool
  | 0, x, c => (x, c)
  | n + 1, x, c => rcl16 n (BitVec.ofNat 16 (x.toNat * 2 + carryIn c)) (x.getLsbD 15)

/-- R131: OF after `n` rotations that left `x` and `c`; for `n` = 0 it is the draw `d`. -/
def rclOverflow (n : Nat) (x : Word) (c d : Bool) : Bool :=
  if n = 1 then c ^^ x.getLsbD 15 else if n ≥ 2 then false else d

/-! ### Decrement -/

/-- R132: the six flags of DEC on `a`; CF is the draw `cf`. AF uses the nibble mask 0x0010 (90_conflicts.md C4). -/
def decStatus (a : Word) (cf : Bool) : StatusFlags :=
  let r := a - 1
  { cf := cf
    pf := parity (lowByte r)
    af := decide ((a ^^^ 0x0001#16 ^^^ r) &&& 0x0010#16 ≠ 0)
    zf := decide (r = 0)
    sf := r.getLsbD 15
    of := decide ((a ^^^ 0x0001#16) &&& (a ^^^ r) &&& 0x8000#16 ≠ 0) }

end Sys2Proof.Machine
end

