-- ==== Sys2Proof/Machine/Operands.lean ====
section
/-! DEFINITION. Operand references (00_scope.md R11): reading and writing the byte registers (halves of the general
registers, 10_state.md R21, R22), the word registers and the segment registers. No admitted tag produces a memory
reference (30_encoding.md R88), and no admitted instruction writes an immediate (R11), so a destination is a register. -/

namespace Sys2Proof.Machine

/-- `R16[i]` (10_state.md R23). -/
def State.reg16 (s : State) : Reg16 → Word
  | .ax => s.ax | .cx => s.cx | .dx => s.dx | .bx => s.bx
  | .sp => s.sp | .bp => s.bp | .si => s.si | .di => s.di

/-- `R16[i] <- v`. -/
def State.setReg16 (s : State) (r : Reg16) (v : Word) : State :=
  match r with
  | .ax => { s with ax := v } | .cx => { s with cx := v } | .dx => { s with dx := v } | .bx => { s with bx := v }
  | .sp => { s with sp := v } | .bp => { s with bp := v } | .si => { s with si := v } | .di => { s with di := v }

/-- The general register a byte register is a half of (R21). -/
def Reg8.parent : Reg8 → Reg16
  | .al => .ax | .ah => .ax | .cl => .cx | .ch => .cx | .dl => .dx | .dh => .dx | .bl => .bx | .bh => .bx

/-- Whether a byte register is the high half (R21). -/
def Reg8.isHigh : Reg8 → Bool
  | .al => false | .cl => false | .dl => false | .bl => false
  | .ah => true | .ch => true | .dh => true | .bh => true

/-- `w` with its low half replaced: bits 15:8 unchanged (R22). -/
def withLow (w : Word) (v : Byte) : Word := wordOf v (highByte w)

/-- `w` with its high half replaced: bits 7:0 unchanged (R22). -/
def withHigh (w : Word) (v : Byte) : Word := wordOf (lowByte w) v

/-- `R8[i]`: the half of the live word register (R21, R22). -/
def State.reg8 (s : State) (r : Reg8) : Byte :=
  if Reg8.isHigh r then highByte (s.reg16 (Reg8.parent r)) else lowByte (s.reg16 (Reg8.parent r))

/-- `R8[i] <- v`: the other half is unchanged, and the word sees the write at once (R22). -/
def State.setReg8 (s : State) (r : Reg8) (v : Byte) : State :=
  let w := s.reg16 (Reg8.parent r)
  s.setReg16 (Reg8.parent r) (if Reg8.isHigh r then withHigh w v else withLow w v)

/-- `SREG[i]` (R23, R25). -/
def State.sreg (s : State) : SReg → Word
  | .es => s.es | .cs => s.cs | .ss => s.ss | .ds => s.ds

/-- `SREG[i] <- v`. -/
def State.setSreg (s : State) (r : SReg) (v : Word) : State :=
  match r with
  | .es => { s with es := v } | .cs => { s with cs := v } | .ss => { s with ss := v } | .ds => { s with ds := v }

/-- A byte source operand: `Reg8(i)` or `Imm8(v)` (00_scope.md R11). -/
inductive Source8 where
  | reg (r : Reg8)
  | imm (v : Byte)
  deriving DecidableEq, Repr

/-- A word source operand: `Reg16(i)`, `Seg(i)`, `Imm16(v)` or `Flags` (R11). -/
inductive Source16 where
  | reg (r : Reg16)
  | seg (r : SReg)
  | imm (v : Word)
  | flags
  deriving DecidableEq, Repr

/-- `read(op)` of a byte operand: the live register's value at the moment of the read (10_state.md R38). -/
def State.read8 (s : State) : Source8 → Byte
  | .reg r => s.reg8 r
  | .imm v => v

/-- `read(op)` of a word operand. -/
def State.read16 (s : State) : Source16 → Word
  | .reg r => s.reg16 r
  | .seg r => s.sreg r
  | .imm v => v
  | .flags => s.flags.toWord

end Sys2Proof.Machine
end

