-- ==== Sys2Proof/Machine/Arith.lean ====
section
/-! DEFINITION. 41_arith_logic.md: the byte ALU forms, DAA, RCL, DEC and INC. No body here raises anything (its
introduction). Sources are read before the destination is written (30_encoding.md R107). -/

namespace Sys2Proof.Machine

/-- R123: `write(op1, Add8(read(op1), read(op2), 0))`. -/
def addBody (dst : Reg8) (src : Source8) (s : State) : State :=
  let x := add8 (s.reg8 dst) (s.read8 src) false
  (s.setStatus x.status).setReg8 dst x.result

/-- R124: as ADD with the carry-in FLAGS.CF. -/
def adcBody (dst : Reg8) (src : Source8) (s : State) : State :=
  let x := add8 (s.reg8 dst) (s.read8 src) (s.flag .cf)
  (s.setStatus x.status).setReg8 dst x.result

/-- R125: `write(op1, Sub8(read(op1), read(op2)))`. -/
def subBody (dst : Reg8) (src : Source8) (s : State) : State :=
  let x := sub8 (s.reg8 dst) (s.read8 src)
  (s.setStatus x.status).setReg8 dst x.result

/-- R126: the flags of `Sub8`, no operand written. -/
def cmpBody (fst : Reg8) (src : Source8) (s : State) : State :=
  s.setStatus (sub8 (s.reg8 fst) (s.read8 src)).status

/-- R127 to R129: write the bitwise result and `Logic8` of it (R122); AF is a draw. -/
def logicBody (f : Byte → Byte → Byte) (dst : Reg8) (src : Source8) (s : State) : State :=
  let r := f (s.reg8 dst) (s.read8 src)
  ((s.setReg8 dst r).setStatus (logicStatus r (s.drawn 0))).drew 1

/-- R127: AND. -/
def andBody (dst : Reg8) (src : Source8) (s : State) : State := logicBody (fun a b => a &&& b) dst src s

/-- R128: OR. -/
def orBody (dst : Reg8) (src : Source8) (s : State) : State := logicBody (fun a b => a ||| b) dst src s

/-- R129: XOR. -/
def xorBody (dst : Reg8) (src : Source8) (s : State) : State := logicBody (fun a b => a ^^^ b) dst src s

/-- R130: DAA. AF is set when the low nibble is corrected and is a draw otherwise; ZF, SF, PF and OF are draws (D15). One
draw each is reserved, AF's too where it is not used. -/
def daaBody (s : State) : State :=
  let al := s.reg8 .al
  let low := daaLow al (s.flag .af)
  let status : StatusFlags :=
    { cf := daaHigh al (s.flag .cf)
      pf := s.drawn 3
      af := if low then true else s.drawn 0
      zf := s.drawn 1
      sf := s.drawn 2
      of := s.drawn 4 }
  ((s.setReg8 .al (daaResult al (s.flag .af) (s.flag .cf))).setStatus status).drew 5

/-- R131: RCL of `dst` by the count in CL, read once and not masked (D12). PF, AF, ZF and SF are unchanged. OF is a draw at
count 0; that draw is reserved for every count. -/
def rclBody (dst : Reg16) (s : State) : State :=
  let n := (s.reg8 .cl).toNat
  let x := rcl16 n (s.reg16 dst) (s.flag .cf)
  ((s.setReg16 dst x.1).setCarryOverflow x.2 (rclOverflow n x.1 x.2 (s.drawn 0))).drew 1

/-- R132: DEC of a word register; CF is a draw (D14). -/
def decBody (dst : Reg16) (s : State) : State :=
  let a := s.reg16 dst
  ((s.setReg16 dst (a - 1)).setStatus (decStatus a (s.drawn 0))).drew 1

/-- R133: INC of a byte register, without flags. -/
def incBody (dst : Reg8) (s : State) : State := s.setReg8 dst (s.reg8 dst + 1)

/-- `ADD r/m8, r8` (R123): op1 = R8[rm], op2 = R8[reg]. -/
def execAddRm8R8 (rm reg : Reg8) (s : State) : Host.Outcome State Fault Refusal := cyclePure 2 (addBody rm (.reg reg)) s

/-- `ADD r8, r/m8` (R123): op1 = R8[reg], op2 = R8[rm]. -/
def execAddR8Rm8 (reg rm : Reg8) (s : State) : Host.Outcome State Fault Refusal := cyclePure 2 (addBody reg (.reg rm)) s

/-- `ADD AL, imm8` (R123): op1 = AL, op2 = imm8. -/
def execAddAlImm8 (imm : Byte) (s : State) : Host.Outcome State Fault Refusal := cyclePure 2 (addBody .al (.imm imm)) s

/-- `OR r/m8, r8` (R128): op1 = R8[rm], op2 = R8[reg]. -/
def execOrRm8R8 (rm reg : Reg8) (s : State) : Host.Outcome State Fault Refusal := cyclePure 2 (orBody rm (.reg reg)) s

/-- `OR r8, r/m8` (R128): op1 = R8[reg], op2 = R8[rm]. -/
def execOrR8Rm8 (reg rm : Reg8) (s : State) : Host.Outcome State Fault Refusal := cyclePure 2 (orBody reg (.reg rm)) s

/-- `OR AL, imm8` (R128): op1 = AL, op2 = imm8. -/
def execOrAlImm8 (imm : Byte) (s : State) : Host.Outcome State Fault Refusal := cyclePure 2 (orBody .al (.imm imm)) s

/-- `ADC r/m8, r8` (R124): op1 = R8[rm], op2 = R8[reg]. -/
def execAdcRm8R8 (rm reg : Reg8) (s : State) : Host.Outcome State Fault Refusal := cyclePure 2 (adcBody rm (.reg reg)) s

/-- `ADC r8, r/m8` (R124): op1 = R8[reg], op2 = R8[rm]. -/
def execAdcR8Rm8 (reg rm : Reg8) (s : State) : Host.Outcome State Fault Refusal := cyclePure 2 (adcBody reg (.reg rm)) s

/-- `ADC AL, imm8` (R124): op1 = AL, op2 = imm8. -/
def execAdcAlImm8 (imm : Byte) (s : State) : Host.Outcome State Fault Refusal := cyclePure 2 (adcBody .al (.imm imm)) s

/-- `AND r/m8, r8` (R127): op1 = R8[rm], op2 = R8[reg]. -/
def execAndRm8R8 (rm reg : Reg8) (s : State) : Host.Outcome State Fault Refusal := cyclePure 2 (andBody rm (.reg reg)) s

/-- `AND r8, r/m8` (R127): op1 = R8[reg], op2 = R8[rm]. -/
def execAndR8Rm8 (reg rm : Reg8) (s : State) : Host.Outcome State Fault Refusal := cyclePure 2 (andBody reg (.reg rm)) s

/-- `AND AL, imm8` (R127): op1 = AL, op2 = imm8. -/
def execAndAlImm8 (imm : Byte) (s : State) : Host.Outcome State Fault Refusal := cyclePure 2 (andBody .al (.imm imm)) s

/-- `SUB r/m8, r8` (R125): op1 = R8[rm], op2 = R8[reg]. -/
def execSubRm8R8 (rm reg : Reg8) (s : State) : Host.Outcome State Fault Refusal := cyclePure 2 (subBody rm (.reg reg)) s

/-- `SUB r8, r/m8` (R125): op1 = R8[reg], op2 = R8[rm]. -/
def execSubR8Rm8 (reg rm : Reg8) (s : State) : Host.Outcome State Fault Refusal := cyclePure 2 (subBody reg (.reg rm)) s

/-- `SUB AL, imm8` (R125): op1 = AL, op2 = imm8. -/
def execSubAlImm8 (imm : Byte) (s : State) : Host.Outcome State Fault Refusal := cyclePure 2 (subBody .al (.imm imm)) s

/-- `XOR r/m8, r8` (R129): op1 = R8[rm], op2 = R8[reg]. -/
def execXorRm8R8 (rm reg : Reg8) (s : State) : Host.Outcome State Fault Refusal := cyclePure 2 (xorBody rm (.reg reg)) s

/-- `XOR r8, r/m8` (R129): op1 = R8[reg], op2 = R8[rm]. -/
def execXorR8Rm8 (reg rm : Reg8) (s : State) : Host.Outcome State Fault Refusal := cyclePure 2 (xorBody reg (.reg rm)) s

/-- `XOR AL, imm8` (R129): op1 = AL, op2 = imm8. -/
def execXorAlImm8 (imm : Byte) (s : State) : Host.Outcome State Fault Refusal := cyclePure 2 (xorBody .al (.imm imm)) s

/-- `CMP r/m8, r8` (R126): op1 = R8[rm], op2 = R8[reg]. -/
def execCmpRm8R8 (rm reg : Reg8) (s : State) : Host.Outcome State Fault Refusal := cyclePure 2 (cmpBody rm (.reg reg)) s

/-- `CMP r8, r/m8` (R126): op1 = R8[reg], op2 = R8[rm]. -/
def execCmpR8Rm8 (reg rm : Reg8) (s : State) : Host.Outcome State Fault Refusal := cyclePure 2 (cmpBody reg (.reg rm)) s

/-- `CMP AL, imm8` (R126): op1 = AL, op2 = imm8. -/
def execCmpAlImm8 (imm : Byte) (s : State) : Host.Outcome State Fault Refusal := cyclePure 2 (cmpBody .al (.imm imm)) s

/-- `DAA` (R130). -/
def execDaa (s : State) : Host.Outcome State Fault Refusal := cyclePure 1 daaBody s

/-- `RCL r/m16, CL` (R131). -/
def execRclRm16Cl (rm : Reg16) (s : State) : Host.Outcome State Fault Refusal := cyclePure 2 (rclBody rm) s

/-- `DEC r16` (R132). -/
def execDecR16 (r : Reg16) (s : State) : Host.Outcome State Fault Refusal := cyclePure 1 (decBody r) s

/-- `INC r/m8` (R133). -/
def execIncRm8 (rm : Reg8) (s : State) : Host.Outcome State Fault Refusal := cyclePure 2 (incBody rm) s

end Sys2Proof.Machine
end

