-- ==== Sys2Proof/Machine/Control.lean ====
section
/-! DEFINITION. 44_control.md: jumps, loop, call and return (R200 to R208). No flag changes. A body sees the IP after
operand consumption and before the final + 1 (R200); `cycle` adds that 1. -/

namespace Sys2Proof.Machine

/-- `sext_16(v8)` (00_scope.md R7). -/
def sext16 (d : Byte) : Word := d.signExtend 16

/-- R200: `RelJump8(d)`. -/
def relJump8 (d : Byte) (s : State) : State := { s with ip := s.ip + sext16 d }

/-- A relative jump taken when `c` holds (R201 to R205). -/
def jumpIf (c : Bool) (d : Byte) (s : State) : State := if c then relJump8 d s else s

/-- R206: CX <- CX - 1 modulo 2^16, then jump if it is not 0; no flag is written (D25). -/
def loopBody (d : Byte) (s : State) : State :=
  let t := { s with cx := s.cx - 1 }
  jumpIf (decide (t.cx ≠ 0)) d t

/-- R207: push IP (here IP0 + 2), then add the displacement modulo 2^16. -/
def callBody (disp : Word) (s : State) : Except Fatal State := do
  let t ← push16 s.ip s
  return { t with ip := t.ip + disp }

/-- R208: pop into IP; a popped 0 terminates with status 0, SP already raised and IP not written (D17). -/
def retBody (s : State) : Except Fatal BodyEnd := do
  let (v, t) ← pop16 s
  return if v = 0 then .terminated 0 t else .returned { t with ip := v }

/-- `JMP rel8` (R201). -/
def execJmpRel8 (d : Byte) (s : State) : Host.Outcome State Fault Refusal := cyclePure 2 (jumpIf true d) s

/-- `JB rel8` (R202): CF = 1. -/
def execJbRel8 (d : Byte) (s : State) : Host.Outcome State Fault Refusal := cyclePure 2 (fun t => jumpIf (t.flag .cf) d t) s

/-- `JBE rel8` (R203): CF = 1 or ZF = 1. -/
def execJbeRel8 (d : Byte) (s : State) : Host.Outcome State Fault Refusal :=
  cyclePure 2 (fun t => jumpIf (t.flag .cf || t.flag .zf) d t) s

/-- `JZ rel8` (R204): ZF = 1. -/
def execJzRel8 (d : Byte) (s : State) : Host.Outcome State Fault Refusal := cyclePure 2 (fun t => jumpIf (t.flag .zf) d t) s

/-- `JNZ rel8` (R205): ZF = 0. -/
def execJnzRel8 (d : Byte) (s : State) : Host.Outcome State Fault Refusal := cyclePure 2 (fun t => jumpIf (!t.flag .zf) d t) s

/-- `LOOP rel8` (R206). -/
def execLoopRel8 (d : Byte) (s : State) : Host.Outcome State Fault Refusal := cyclePure 2 (loopBody d) s

/-- `CALL rel16` (R207). -/
def execCallRel16 (disp : Word) (s : State) : Host.Outcome State Fault Refusal := cycle 3 (callBody disp) s

/-- `RET` (R208). -/
def execRet (s : State) : Host.Outcome State Fault Refusal := cycleOrExit 1 retBody s

end Sys2Proof.Machine
end

