-- ==== Sys2Proof/Machine/Interrupt.lean ====
section
/-! DEFINITION. 45_interrupt.md: INT and the BIOS collaborator by its contract (R220 to R226). The collaborator reads the
state and writes none of it (R222); its only effects are the output stream and termination. Log entry 11. -/

namespace Sys2Proof.Machine

/-- The collaborator's answers (R221). -/
inductive BiosAnswer where
  /-- `Continue(out)`: the bytes the service emitted. -/
  | continues (out : List Byte)
  /-- `Terminate(status)`. -/
  | terminates (status : Byte)
  /-- `Unsupported(code)`. -/
  | unsupported (code : Fatal)
  deriving DecidableEq, Repr

/-- R224: the print-string loop from offset `o`, a natural number, with `left` = 0x10000 - o offsets still in the segment.
The sentinel is not emitted; at offset 0x10000 the loop raises OFFSET_WRAP. -/
def printString (m : Memory) (ds : Word) (sentinel : Byte) : (left : Nat) → (o : Nat) → Except Fatal (List Byte)
  | 0, o => .error (.offsetWrap ds o)
  | left + 1, o =>
    match memRead8 m (ds.toNat * 16 + o) with
    | .error c => .error c
    | .ok b =>
      if b = sentinel then .ok []
      else
        match printString m ds sentinel left (o + 1) with
        | .error c => .error c
        | .ok out => .ok (b :: out)

/-- R224: the string at DS:PSTR_REG. That PSTR_REG is one of the eight word registers is log entry 19. -/
def printedString (s : State) : Except Fatal (List Byte) :=
  let o := (s.reg16 s.params.pstrReg).toNat
  printString s.mem s.ds s.params.sentinel (0x10000 - o) o

/-- R221 to R226: the answer to interrupt `n`, function `f`, over the state as it stands. Video services are 0x10 with
function 0x0E (print the character in AL); platform services are 0x21 with 0x09 (print string) and 0x4C (terminate with
AL); anything else is unsupported. -/
def bios (n f : Byte) (s : State) : Except Fatal BiosAnswer :=
  if n = 0x10 then
    if f = 0x0E then .ok (.continues [s.reg8 .al]) else .ok (.unsupported (.badBiosFunction n f))
  else if n = 0x21 then
    if f = 0x09 then (printedString s).map .continues
    else if f = 0x4C then .ok (.terminates (s.reg8 .al))
    else .ok (.unsupported (.badBiosFunction n f))
  else .ok (.unsupported (.badInterrupt n f))

/-- R220: call the collaborator with the number and AH, and act on its answer. Nothing is pushed, no vector is read, no
flag changes (D18). -/
def intBody (n : Byte) (s : State) : Except Fatal BodyEnd :=
  match bios n (s.reg8 .ah) s with
  | .error c => .error c
  | .ok (.continues out) => .ok (.returned { s with output := s.output ++ out })
  | .ok (.terminates status) => .ok (.terminated status s)
  | .ok (.unsupported code) => .error code

/-- `INT imm8` (R220). -/
def execIntImm8 (n : Byte) (s : State) : Host.Outcome State Fault Refusal := cycleOrExit 2 (intBody n) s

end Sys2Proof.Machine
end

