-- ==== Sys2Proof/Machine/Move.lean ====
section
/-! DEFINITION. 46_move.md: the moves (R240 to R247). Every one is `write(op1, read(op2))`, changes no flag, and raises
nothing beyond the decode faults. -/

namespace Sys2Proof.Machine

/-- R240, R242, R246: a byte move. -/
def mov8Body (dst : Reg8) (src : Source8) (s : State) : State := s.setReg8 dst (s.read8 src)

/-- R241, R243, R244, R247: a word move to a general or pointer/index register. -/
def mov16Body (dst : Reg16) (src : Source16) (s : State) : State := s.setReg16 dst (s.read16 src)

/-- R245: a word move to a segment register; a new CS is used from the next fetch (D36). -/
def movSregBody (dst : SReg) (src : Source16) (s : State) : State := s.setSreg dst (s.read16 src)

/-- `MOV r/m8, r8` (R240). -/
def execMovRm8R8 (rm reg : Reg8) (s : State) : Host.Outcome State Fault Refusal := cyclePure 2 (mov8Body rm (.reg reg)) s

/-- `MOV r/m16, r16` (R241). -/
def execMovRm16R16 (rm reg : Reg16) (s : State) : Host.Outcome State Fault Refusal := cyclePure 2 (mov16Body rm (.reg reg)) s

/-- `MOV r8, r/m8` (R242). -/
def execMovR8Rm8 (reg rm : Reg8) (s : State) : Host.Outcome State Fault Refusal := cyclePure 2 (mov8Body reg (.reg rm)) s

/-- `MOV r16, r/m16` (R243). -/
def execMovR16Rm16 (reg rm : Reg16) (s : State) : Host.Outcome State Fault Refusal := cyclePure 2 (mov16Body reg (.reg rm)) s

/-- `MOV r/m16, CS` (R244). -/
def execMovRm16Cs (rm : Reg16) (s : State) : Host.Outcome State Fault Refusal := cyclePure 2 (mov16Body rm (.seg .cs)) s

/-- `MOV r/m16, DS` (R244). -/
def execMovRm16Ds (rm : Reg16) (s : State) : Host.Outcome State Fault Refusal := cyclePure 2 (mov16Body rm (.seg .ds)) s

/-- `MOV CS, r/m16` (R245). -/
def execMovCsRm16 (rm : Reg16) (s : State) : Host.Outcome State Fault Refusal := cyclePure 2 (movSregBody .cs (.reg rm)) s

/-- `MOV DS, r/m16` (R245). -/
def execMovDsRm16 (rm : Reg16) (s : State) : Host.Outcome State Fault Refusal := cyclePure 2 (movSregBody .ds (.reg rm)) s

/-- `MOV r8, imm8` (R246). -/
def execMovR8Imm8 (r : Reg8) (imm : Byte) (s : State) : Host.Outcome State Fault Refusal := cyclePure 2 (mov8Body r (.imm imm)) s

/-- `MOV r16, imm16` (R247). -/
def execMovR16Imm16 (r : Reg16) (imm : Word) (s : State) : Host.Outcome State Fault Refusal := cyclePure 3 (mov16Body r (.imm imm)) s

end Sys2Proof.Machine
end

