-- ==== Sys2Proof/Machine/Stack.lean ====
section
/-! DEFINITION. 43_stack.md: PUSH, POP, PUSHA, PUSHF, POPF (R182 to R186), over `push16` and `pop16` (R180, R181). -/

namespace Sys2Proof.Machine

/-- R182: SP is lowered first and the operand is read after it, so `PUSH SP` pushes the lowered SP (D34). -/
def pushBody (r : Reg16) (s : State) : Except Fatal State := do
  let t := { s with sp := s.sp - 2 }
  let m ← segWrite16 t.mem t.ss t.sp (t.reg16 r)
  return t.setMem m

/-- R183: the operand is written first and SP raised after it, so `POP SP` leaves the popped value + 2 (D34). -/
def popBody (r : Reg16) (s : State) : Except Fatal State := do
  let v ← segRead16 s.mem s.ss s.sp
  let t := s.setReg16 r v
  return { t with sp := t.sp + 2 }

/-- R184: the eight pushes in the 80186 order (D23); the pushed SP is the one before the instruction. -/
def pushaBody (s : State) : Except Fatal State := do
  let s1 ← push16 s.ax s
  let s2 ← push16 s.cx s1
  let s3 ← push16 s.dx s2
  let s4 ← push16 s.bx s3
  let s5 ← push16 s.sp s4
  let s6 ← push16 s.bp s5
  let s7 ← push16 s.si s6
  push16 s.di s7

/-- R185: push all 16 bits of FLAGS. -/
def pushfBody (s : State) : Except Fatal State := push16 (s.read16 .flags) s

/-- R186: FLAGS <- the popped word, all 16 bits. -/
def popfBody (s : State) : Except Fatal State := do
  let (v, t) ← pop16 s
  return { t with flags := Flags.ofWord v }

/-- `PUSH r16` (R182). -/
def execPushR16 (r : Reg16) (s : State) : Host.Outcome State Fault Refusal := cycle 1 (pushBody r) s

/-- `POP r16` (R183). -/
def execPopR16 (r : Reg16) (s : State) : Host.Outcome State Fault Refusal := cycle 1 (popBody r) s

/-- `PUSHA` (R184). -/
def execPusha (s : State) : Host.Outcome State Fault Refusal := cycle 1 pushaBody s

/-- `PUSHF` (R185). -/
def execPushf (s : State) : Host.Outcome State Fault Refusal := cycle 1 pushfBody s

/-- `POPF` (R186). -/
def execPopf (s : State) : Host.Outcome State Fault Refusal := cycle 1 popfBody s

end Sys2Proof.Machine
end

