-- ==== Sys2Proof/Machine/Strings.lean ====
section
/-! DEFINITION. 42_string.md: string move, load and store (R160 to R166). The source is DS:SI, the destination ES:DI; no
flag changes. -/

namespace Sys2Proof.Machine

/-- R160: an index stepped by `w`, up when DF = 0 and down when DF = 1, modulo 2^16 (MOVSB and MOVSW only). -/
def stepIndex (df : Bool) (i w : Word) : Word := if df then i - w else i + w

/-- R161: move a byte, then step SI and DI by DF. -/
def movsbBody (s : State) : Except Fatal State := do
  let v ← segRead8 s.mem s.ds s.si
  let m ← segWrite8 s.mem s.es s.di v
  return { s with mem := m, si := stepIndex (s.flag .df) s.si 1, di := stepIndex (s.flag .df) s.di 1 }

/-- R162: move a word, then step SI and DI by DF. -/
def movswBody (s : State) : Except Fatal State := do
  let v ← segRead16 s.mem s.ds s.si
  let m ← segWrite16 s.mem s.es s.di v
  return { s with mem := m, si := stepIndex (s.flag .df) s.si 2, di := stepIndex (s.flag .df) s.di 2 }

/-- R163: AL <- byte at DS:SI; SI always steps up (90_conflicts.md C6). -/
def lodsbBody (s : State) : Except Fatal State := do
  let v ← segRead8 s.mem s.ds s.si
  return { s.setReg8 .al v with si := s.si + 1 }

/-- R164: AX <- word at DS:SI; SI always steps up. -/
def lodswBody (s : State) : Except Fatal State := do
  let v ← segRead16 s.mem s.ds s.si
  return { s with ax := v, si := s.si + 2 }

/-- R165: byte at ES:DI <- AL; DI always steps up. -/
def stosbBody (s : State) : Except Fatal State := do
  let m ← segWrite8 s.mem s.es s.di (s.reg8 .al)
  return { s with mem := m, di := s.di + 1 }

/-- R166: word at ES:DI <- AX; DI always steps up. -/
def stoswBody (s : State) : Except Fatal State := do
  let m ← segWrite16 s.mem s.es s.di s.ax
  return { s with mem := m, di := s.di + 2 }

/-- `MOVSB` (R161). -/
def execMovsb (s : State) : Host.Outcome State Fault Refusal := cycle 1 movsbBody s

/-- `MOVSW` (R162). -/
def execMovsw (s : State) : Host.Outcome State Fault Refusal := cycle 1 movswBody s

/-- `LODSB` (R163). -/
def execLodsb (s : State) : Host.Outcome State Fault Refusal := cycle 1 lodsbBody s

/-- `LODSW` (R164). -/
def execLodsw (s : State) : Host.Outcome State Fault Refusal := cycle 1 lodswBody s

/-- `STOSB` (R165). -/
def execStosb (s : State) : Host.Outcome State Fault Refusal := cycle 1 stosbBody s

/-- `STOSW` (R166). -/
def execStosw (s : State) : Host.Outcome State Fault Refusal := cycle 1 stoswBody s

end Sys2Proof.Machine
end

