-- ==== Sys2Proof/Machine/Dispatch.lean ====
section
/-! DEFINITION. One arm per instruction of the decode table, each a direct call of its meaning. -/

namespace Sys2Proof.Machine

def exec (i : Instr) (s : State) : Host.Outcome State Fault Refusal :=
  match i with
  | .addRm8R8 rm reg => Sys2Proof.Machine.execAddRm8R8 rm reg s
  | .addR8Rm8 reg rm => Sys2Proof.Machine.execAddR8Rm8 reg rm s
  | .addAlImm8 imm => Sys2Proof.Machine.execAddAlImm8 imm s
  | .orRm8R8 rm reg => Sys2Proof.Machine.execOrRm8R8 rm reg s
  | .orR8Rm8 reg rm => Sys2Proof.Machine.execOrR8Rm8 reg rm s
  | .orAlImm8 imm => Sys2Proof.Machine.execOrAlImm8 imm s
  | .adcRm8R8 rm reg => Sys2Proof.Machine.execAdcRm8R8 rm reg s
  | .adcR8Rm8 reg rm => Sys2Proof.Machine.execAdcR8Rm8 reg rm s
  | .adcAlImm8 imm => Sys2Proof.Machine.execAdcAlImm8 imm s
  | .andRm8R8 rm reg => Sys2Proof.Machine.execAndRm8R8 rm reg s
  | .andR8Rm8 reg rm => Sys2Proof.Machine.execAndR8Rm8 reg rm s
  | .andAlImm8 imm => Sys2Proof.Machine.execAndAlImm8 imm s
  | .subRm8R8 rm reg => Sys2Proof.Machine.execSubRm8R8 rm reg s
  | .subR8Rm8 reg rm => Sys2Proof.Machine.execSubR8Rm8 reg rm s
  | .subAlImm8 imm => Sys2Proof.Machine.execSubAlImm8 imm s
  | .xorRm8R8 rm reg => Sys2Proof.Machine.execXorRm8R8 rm reg s
  | .xorR8Rm8 reg rm => Sys2Proof.Machine.execXorR8Rm8 reg rm s
  | .xorAlImm8 imm => Sys2Proof.Machine.execXorAlImm8 imm s
  | .cmpRm8R8 rm reg => Sys2Proof.Machine.execCmpRm8R8 rm reg s
  | .cmpR8Rm8 reg rm => Sys2Proof.Machine.execCmpR8Rm8 reg rm s
  | .cmpAlImm8 imm => Sys2Proof.Machine.execCmpAlImm8 imm s
  | .daa => Sys2Proof.Machine.execDaa s
  | .decR16 r => Sys2Proof.Machine.execDecR16 r s
  | .pushR16 r => Sys2Proof.Machine.execPushR16 r s
  | .popR16 r => Sys2Proof.Machine.execPopR16 r s
  | .pusha => Sys2Proof.Machine.execPusha s
  | .jbRel8 d => Sys2Proof.Machine.execJbRel8 d s
  | .jzRel8 d => Sys2Proof.Machine.execJzRel8 d s
  | .jnzRel8 d => Sys2Proof.Machine.execJnzRel8 d s
  | .jbeRel8 d => Sys2Proof.Machine.execJbeRel8 d s
  | .movRm8R8 rm reg => Sys2Proof.Machine.execMovRm8R8 rm reg s
  | .movRm16R16 rm reg => Sys2Proof.Machine.execMovRm16R16 rm reg s
  | .movR8Rm8 reg rm => Sys2Proof.Machine.execMovR8Rm8 reg rm s
  | .movR16Rm16 reg rm => Sys2Proof.Machine.execMovR16Rm16 reg rm s
  | .movRm16Cs rm => Sys2Proof.Machine.execMovRm16Cs rm s
  | .movRm16Ds rm => Sys2Proof.Machine.execMovRm16Ds rm s
  | .movCsRm16 rm => Sys2Proof.Machine.execMovCsRm16 rm s
  | .movDsRm16 rm => Sys2Proof.Machine.execMovDsRm16 rm s
  | .pushf => Sys2Proof.Machine.execPushf s
  | .popf => Sys2Proof.Machine.execPopf s
  | .movsb => Sys2Proof.Machine.execMovsb s
  | .movsw => Sys2Proof.Machine.execMovsw s
  | .stosb => Sys2Proof.Machine.execStosb s
  | .stosw => Sys2Proof.Machine.execStosw s
  | .lodsb => Sys2Proof.Machine.execLodsb s
  | .lodsw => Sys2Proof.Machine.execLodsw s
  | .movR8Imm8 r imm => Sys2Proof.Machine.execMovR8Imm8 r imm s
  | .movR16Imm16 r imm => Sys2Proof.Machine.execMovR16Imm16 r imm s
  | .ret => Sys2Proof.Machine.execRet s
  | .intImm8 n => Sys2Proof.Machine.execIntImm8 n s
  | .rclRm16Cl rm => Sys2Proof.Machine.execRclRm16Cl rm s
  | .loopRel8 d => Sys2Proof.Machine.execLoopRel8 d s
  | .callRel16 disp => Sys2Proof.Machine.execCallRel16 disp s
  | .jmpRel8 d => Sys2Proof.Machine.execJmpRel8 d s
  | .incRm8 rm => Sys2Proof.Machine.execIncRm8 rm s

end Sys2Proof.Machine
end

