-- ==== Sys2Proof/Machine/Step.lean ====
section
/-! DEFINITION. One step of the run-state machine (30_encoding.md R98), and how the host places an instruction. -/

namespace Sys2Proof.Machine

/-- R98: only when RUN = Running. The budget is checked before the fetch (R99); then the instruction is fetched and decoded
(R100 to R102) and executed with its cycle (`exec`, R103 to R106). From Halted there is no step. -/
def step (s : State) : Host.Outcome State Fault Refusal :=
  match s.run with
  | .halted _ => .refused .halted
  | .running =>
    if s.ticks > s.params.tickBudget then .next s.exhaust
    else
      match fetch s with
      | .error code => raiseFatal code s
      | .ok i => exec i s

/-- `s` with the instruction of a table word stored where `step` fetches its next instruction, `lin(CS, IP)`, and zero bytes
above it up to the longest instruction (log entry 6). -/
def State.withFetchWord (s : State) (nbits w : Nat) : State :=
  s.setMem (s.mem.writeBytes (lin s.cs s.ip) (tableBytes nbits w))

end Sys2Proof.Machine
end

