-- ==== Sys2Proof/Machine/Launch.lean ====
section
/-! DEFINITION. The reset sequence for every value of the launch parameters (70_reset_and_hazards.md R290,
10_state.md R40, 20_memory.md R68), of which `State.reset` is one. -/

namespace Sys2Proof.Machine

/-- The parameters of a launch (00_scope.md R5, 70_reset_and_hazards.md R298). -/
structure LaunchParams where
  image : List Byte
  loadOffset : Nat
  run : RunParams
  resetAx : Word
  resetCx : Word
  resetDx : Word
  resetBx : Word
  resetSp : Word
  resetBp : Word
  resetSi : Word
  resetDi : Word
  resetIp : Word
  resetEs : Word
  resetCs : Word
  resetSs : Word
  resetDs : Word
  deriving DecidableEq, Repr

/-- R290: `Reset(IMAGE, LOAD_OFFSET, RESET_*)`. An image that does not fit is refused: no run starts (R68, D9). -/
def launch (p : LaunchParams) : Option State :=
  if p.loadOffset + p.image.length > Config.memSize then none
  else some
    { ax := p.resetAx, cx := p.resetCx, dx := p.resetDx, bx := p.resetBx
      sp := p.resetSp, bp := p.resetBp, si := p.resetSi, di := p.resetDi, ip := p.resetIp
      es := p.resetEs, cs := p.resetCs, ss := p.resetSs, ds := p.resetDs
      flags := Flags.atReset
      mem := Memory.writeBytes [] p.loadOffset p.image
      run := .running, ticks := 0, output := [], params := p.run, draws := 0 }

/-- The spec's own test launch (92_eei_decisions.md D38, 95_test_vectors.md section 0) with a given image. -/
def LaunchParams.test (image : List Byte) : LaunchParams :=
  { image := image, loadOffset := 0x0100
    run := { tickBudget := 1000, pstrReg := .dx, sentinel := 0x24 }
    resetAx := 0, resetCx := 0, resetDx := 0, resetBx := 0, resetSp := 0xFFFE, resetBp := 0, resetSi := 0
    resetDi := 0, resetIp := 0x0100, resetEs := 0, resetCs := 0, resetSs := 0, resetDs := 0 }

end Sys2Proof.Machine
end

