-- ==== Sys2Proof/Safety.lean ====
section
/-! DEFINITION. What claims are stated in: the invariant of memory, what a step keeps, how a run ends and what is
observed of it (70_reset_and_hazards.md R298). -/

namespace Sys2Proof.Machine

/-- The state's memory is in its canonical form. -/
abbrev State.MemOk (s : State) : Prop := s.mem.wf = true

/-- RUN is Halted. -/
def State.isHalted (s : State) : Bool :=
  match s.run with
  | .running => false
  | .halted _ => true

/-- The run has ended after `k` steps from `s`: a fault, or a state in Halted (R298). -/
def EndedBy (k : Nat) (s : State) : Prop :=
  (∃ f, Sys2Proof.core.run k s = .fault f) ∨ (∃ t : State, Sys2Proof.core.run k s = .next t ∧ t.isHalted = true)

/-- The observation of a run (R298): after a fatal end only the fault record is defined; otherwise the outcome, the
output stream and the final state. -/
inductive Observation where
  | fatal (f : Fault)
  | ended (o : RunOutcome) (output : List Byte) (final : State)
  deriving DecidableEq, Repr

/-- Run at most `n` steps to the end of the run and observe it. -/
def observe : Nat → State → Option Observation
  | 0, _ => none
  | n + 1, s =>
    match step s with
    | .fault f => some (.fatal f)
    | .refused _ => none
    | .next t =>
      match t.run with
      | .running => observe n t
      | .halted o => some (.ended o t.output t)

end Sys2Proof.Machine
end

