-- ==== Sys2Proof/Certificates/Slice0/Obligations.lean ====
section
/-! DEFINITION. The statements for the provers, and the words they are written in. The helper definitions say what the
spec's rules say in their own arithmetic (natural numbers, single bits, byte reads), not by the functions of the model,
except for the address of an access (`lin`, as every meaning uses it), the register accessors and the read of one byte. -/

namespace Sys2Proof.Claims

open Sys2Proof Sys2Proof.Machine

/-! ### Frames -/

/-- Every byte of memory reads as before. -/
def SameMemory (s t : State) : Prop := ∀ a, t.mem.read a = s.mem.read a

/-- Every byte of memory outside the word at `a` reads as before. -/
def MemoryKeptOutsideWord (a : Nat) (s t : State) : Prop := ∀ c, c ≠ a → c ≠ a + 1 → t.mem.read c = s.mem.read c

/-- The word at `a`, low byte at the lower address (R53). -/
def wordAt (m : Memory) (a : Nat) : Nat := (m.read a).toNat + 256 * (m.read (a + 1)).toNat

/-- The four segment registers are unchanged. -/
def SameSegments (s t : State) : Prop := t.es = s.es ∧ t.cs = s.cs ∧ t.ss = s.ss ∧ t.ds = s.ds

/-- Every word register outside `ws` is unchanged. -/
def WordsKept (ws : List Reg16) (s t : State) : Prop := ∀ r, r ∉ ws → t.reg16 r = s.reg16 r

/-- Every byte register but `d` is unchanged, and so are SP, BP, SI and DI. -/
def BytesKept (d : Reg8) (s t : State) : Prop :=
  (∀ r, r ≠ d → t.reg8 r = s.reg8 r) ∧ t.sp = s.sp ∧ t.bp = s.bp ∧ t.si = s.si ∧ t.di = s.di

/-- Every bit of FLAGS outside the positions `ks` is unchanged. -/
def FlagBitsKept (ks : List Nat) (s t : State) : Prop :=
  ∀ k, k ∉ ks → t.flags.toWord.getLsbD k = s.flags.toWord.getLsbD k

/-- The positions of the six status flags CF, PF, AF, ZF, SF and OF (R29). -/
def statusBits : List Nat := [0, 2, 4, 6, 7, 11]

/-- The output stream and the launch parameters are unchanged. -/
def OutsideKept (s t : State) : Prop := t.output = s.output ∧ t.params = s.params

/-- A completed instruction that ends at `ip`: IP is there, TICKS is one higher, RUN is unchanged (R104). -/
def EndsAt (ip : Word) (s t : State) : Prop := t.ip = ip ∧ t.ticks = s.ticks + 1 ∧ t.run = s.run

/-- What an instruction of `len` bytes that only writes registers or flags leaves: memory, the segment registers, the
output, IP moved past its own bytes. -/
def RegisterOnly (len : Nat) (s t : State) : Prop :=
  SameMemory s t ∧ SameSegments s t ∧ OutsideKept s t ∧ EndsAt (s.ip + BitVec.ofNat 16 len) s t

/-! ### Result flags (R30) -/

/-- An even number of 1 bits. -/
def evenOnes (b : Byte) : Bool :=
  !(b.getLsbD 0 ^^ b.getLsbD 1 ^^ b.getLsbD 2 ^^ b.getLsbD 3 ^^ b.getLsbD 4 ^^ b.getLsbD 5 ^^ b.getLsbD 6 ^^ b.getLsbD 7)

/-- ZF, SF and PF of a byte result. -/
def ResultFlags8 (r : Byte) (t : State) : Prop :=
  t.flag .zf = decide (r.toNat = 0) ∧ t.flag .sf = decide (r.toNat ≥ 128) ∧ t.flag .pf = evenOnes r

/-! ### Encodings -/

/-- A register-direct ModR/M byte (R81): mod = 11, then the reg and rm fields. -/
def direct (reg rm : BitVec 3) : Byte := BitVec.ofNat 8 (0xC0 + 8 * reg.toNat + rm.toNat)

/-- An opcode byte with a register field (R81). -/
def withField (base : Nat) (r : BitVec 3) : Byte := BitVec.ofNat 8 (base + r.toNat)

/-- The instruction lengths of R95, by the opcode byte. -/
def lengthOf (opc : Byte) : Option Nat :=
  let n := opc.toNat
  if n = 0x27 ∨ (0x48 ≤ n ∧ n ≤ 0x4F) ∨ (0x50 ≤ n ∧ n ≤ 0x5F) ∨ n ∈ [0x60, 0x9C, 0x9D, 0xA4, 0xA5] ∨
      (0xAA ≤ n ∧ n ≤ 0xAD) ∨ n = 0xC3 then some 1
  else if n ∈ [0x00, 0x02, 0x08, 0x0A, 0x10, 0x12, 0x20, 0x22, 0x28, 0x2A, 0x30, 0x32, 0x38, 0x3A] ∨
      (0x88 ≤ n ∧ n ≤ 0x8C) ∨ n ∈ [0x8E, 0xD3, 0xFE] ∨ n ∈ [0x04, 0x0C, 0x14, 0x24, 0x2C, 0x34, 0x3C] ∨
      (0xB0 ≤ n ∧ n ≤ 0xB7) ∨ n ∈ [0xCD, 0x72, 0x74, 0x75, 0x76, 0xE2, 0xEB] then some 2
  else if (0xB8 ≤ n ∧ n ≤ 0xBF) ∨ n = 0xE8 then some 3
  else none

/-- The 168 unassigned bytes of R92, as ranges (first, last). -/
def unassignedRanges : List (Nat × Nat) :=
  [(0x01, 0x01), (0x03, 0x03), (0x05, 0x07), (0x09, 0x09), (0x0B, 0x0B), (0x0D, 0x0F), (0x11, 0x11), (0x13, 0x13),
   (0x15, 0x1F), (0x21, 0x21), (0x23, 0x23), (0x25, 0x26), (0x29, 0x29), (0x2B, 0x2B), (0x2D, 0x2F), (0x31, 0x31)] ++
  [(0x33, 0x33), (0x35, 0x37), (0x39, 0x39), (0x3B, 0x3B), (0x3D, 0x47), (0x61, 0x71), (0x73, 0x73), (0x77, 0x87),
   (0x8D, 0x8D), (0x8F, 0x9B), (0x9E, 0xA3), (0xA6, 0xA9), (0xAE, 0xAF), (0xC0, 0xC2), (0xC4, 0xCC), (0xCE, 0xD2)] ++
  [(0xD4, 0xE1), (0xE3, 0xE7), (0xE9, 0xEA), (0xEC, 0xFD), (0xFF, 0xFF)]

/-- An opcode byte of R92. -/
def Unassigned (opc : Byte) : Prop := ∃ p ∈ unassignedRanges, p.1 ≤ opc.toNat ∧ opc.toNat ≤ p.2

/-- The use of the reg field by opcode byte (R91, columns tag1, tag2 and ext); none where no ModR/M byte follows. -/
def modrmUse (opc : Byte) : Option ModrmUse :=
  let n := opc.toNat
  if n ∈ [0x00, 0x02, 0x08, 0x0A, 0x10, 0x12, 0x20, 0x22, 0x28, 0x2A, 0x30, 0x32, 0x38, 0x3A] ∨
      (0x88 ≤ n ∧ n ≤ 0x8B) then some .registers
  else if n = 0x8C ∨ n = 0x8E then some .segment
  else if n = 0xD3 then some (.extension 2)
  else if n = 0xFE then some (.extension 0)
  else none

/-! ### Access faults (R52, R54, R55), in the order of R264 -/

/-- What a byte access at `seg:off` raises. -/
def byteFault (seg off : Word) : Option Fatal :=
  if lin seg off ≥ 524288 then some (.addressRange (lin seg off)) else none

/-- What a word access at `seg:off` raises: the offset check first, then the low byte's address, then the high byte's. -/
def wordFault (seg off : Word) : Option Fatal :=
  if off.toNat = 0xFFFF then some (.offsetWrap seg 0xFFFF)
  else if lin seg off ≥ 524288 then some (.addressRange (lin seg off))
  else if lin seg off + 1 ≥ 524288 then some (.addressRange (lin seg off + 1))
  else none

/-- The fault a body's accesses raise: the first that raises one. -/
def firstFault (l : List (Option Fatal)) : Option Fatal := l.findSome? id

/-- Where the accesses `l` raise `c`, executing `i` answers the fault with `c` and the CS and IP of the instruction. -/
def FaultsWith (i : Instr) (s : State) (l : List (Option Fatal)) : Prop :=
  ∀ c, firstFault l = some c → exec i s = .fault (.fatal c s.cs s.ip)

/-- A step can fetch: RUN is Running and TICKS is within the budget (R98, R99). -/
abbrev CanFetch (s : State) : Prop := s.run = .running ∧ s.ticks ≤ s.params.tickBudget

/-! ### Instruction shapes -/

/-- R120: executing `i` adds the byte `b` and the carry `c` to byte register `d` and writes the six flags. -/
def AddsTo (i : Instr) (s : State) (d : Reg8) (b : Byte) (c : Nat) : Prop :=
  ∃ t, exec i s = .next t ∧
    (t.reg8 d).toNat = ((s.reg8 d).toNat + b.toNat + c) % 256 ∧
    t.flag .cf = decide ((s.reg8 d).toNat + b.toNat + c > 0xFF) ∧
    t.flag .af = decide ((s.reg8 d).toNat % 16 + b.toNat % 16 + c > 0x0F) ∧
    t.flag .of = (((s.reg8 d).getLsbD 7 != (t.reg8 d).getLsbD 7) && (b.getLsbD 7 != (t.reg8 d).getLsbD 7)) ∧
    ResultFlags8 (t.reg8 d) t ∧ BytesKept d s t ∧ FlagBitsKept statusBits s t ∧ RegisterOnly 2 s t

/-- R121: the flags of `a - b` with the byte result `r`. -/
def SubtractFlags (a b r : Byte) (t : State) : Prop :=
  t.flag .cf = decide (a.toNat < b.toNat) ∧
    t.flag .af = decide (a.toNat % 16 < b.toNat % 16) ∧
    t.flag .of = ((a.getLsbD 7 != b.getLsbD 7) && (a.getLsbD 7 != r.getLsbD 7)) ∧ ResultFlags8 r t

/-- R125: executing `i` subtracts the byte `b` from byte register `d` and writes the six flags. -/
def SubtractsFrom (i : Instr) (s : State) (d : Reg8) (b : Byte) : Prop :=
  ∃ t, exec i s = .next t ∧
    (t.reg8 d).toNat = (256 + (s.reg8 d).toNat - b.toNat) % 256 ∧
    SubtractFlags (s.reg8 d) b (t.reg8 d) t ∧ BytesKept d s t ∧ FlagBitsKept statusBits s t ∧ RegisterOnly 2 s t

/-- R126: executing `i` writes the flags of `a - b` and no register. -/
def Compares (i : Instr) (s : State) (a b : Byte) : Prop :=
  ∃ t, exec i s = .next t ∧
    SubtractFlags a b (BitVec.ofNat 8 (256 + a.toNat - b.toNat)) t ∧
    WordsKept [] s t ∧ FlagBitsKept statusBits s t ∧ RegisterOnly 2 s t

/-- R122, R127 to R129: executing `i` writes `r` to byte register `d`, clears CF and OF and writes ZF, SF and PF from `r`;
nothing is said of AF, which is a draw (log entry 7). -/
def WritesBitwise (i : Instr) (s : State) (d : Reg8) (r : Byte) : Prop :=
  ∃ t, exec i s = .next t ∧
    t.reg8 d = r ∧ t.flag .cf = false ∧ t.flag .of = false ∧ ResultFlags8 r t ∧
    BytesKept d s t ∧ FlagBitsKept statusBits s t ∧ RegisterOnly 2 s t

/-- R130: the low nibble of AL is corrected. -/
abbrev LowCorrected (s : State) : Prop := (s.reg8 .al).toNat % 16 > 9 ∨ s.flag .af = true

/-- R130: the high digit of AL is corrected, by the original AL and CF. -/
abbrev HighCorrected (s : State) : Prop := (s.reg8 .al).toNat > 0x99 ∨ s.flag .cf = true

/-- Executing the byte move `i` writes `v` to `d` and changes nothing else. -/
def MovesByte (i : Instr) (s : State) (d : Reg8) (v : Byte) : Prop :=
  ∃ t, exec i s = .next t ∧ t.reg8 d = v ∧ BytesKept d s t ∧ t.flags = s.flags ∧ RegisterOnly 2 s t

/-- Executing the word move `i` of `len` bytes writes `v` to `d` and changes nothing else. -/
def MovesWord (i : Instr) (len : Nat) (s : State) (d : Reg16) (v : Word) : Prop :=
  ∃ t, exec i s = .next t ∧ t.reg16 d = v ∧ WordsKept [d] s t ∧ t.flags = s.flags ∧ RegisterOnly len s t

/-- The offset a taken relative jump of 2 bytes goes to (R200): (IP0 + 2 + signed8(d)) mod 2^16. -/
def jumpTarget (s : State) (d : Byte) : Word := BitVec.ofInt 16 (s.ip.toNat + 2 + d.toInt)

/-- Executing the jump `i` goes to the target of `d` where `c` holds and past the instruction where it does not, and
changes nothing else. -/
def Jumps (i : Instr) (s : State) (d : Byte) (c : Prop) : Prop :=
  ∃ t, exec i s = .next t ∧ WordsKept [] s t ∧ SameSegments s t ∧ t.flags = s.flags ∧ SameMemory s t ∧
    OutsideKept s t ∧ (c → EndsAt (jumpTarget s d) s t) ∧ (¬ c → EndsAt (s.ip + 2) s t)

/-- The index step of MOVSB and MOVSW (R160): up by `w` when DF = 0, down when DF = 1, modulo 2^16. -/
def stepped (s : State) (i : Word) (w : Nat) : Nat :=
  if s.flag .df then (i.toNat + 65536 - w) % 65536 else (i.toNat + w) % 65536

/-- The linear address of the `k`-th byte of the string at DS:PSTR_REG (R224). -/
def stringAddress (s : State) (k : Nat) : Nat := s.ds.toNat * 16 + ((s.reg16 s.params.pstrReg).toNat + k)

/-- The first `k` bytes of the string can be read, lie within the segment, and none is the sentinel (R224). -/
def StringReaches (s : State) (k : Nat) : Prop :=
  ∀ j < k, (s.reg16 s.params.pstrReg).toNat + j ≤ 0xFFFF ∧ stringAddress s j < 524288 ∧
    s.mem.read (stringAddress s j) ≠ s.params.sentinel

/-- What INT leaves unchanged when the service continues or terminates (R220, R222). -/
def IntKeeps (s t : State) : Prop :=
  WordsKept [] s t ∧ SameSegments s t ∧ t.flags = s.flags ∧ SameMemory s t ∧ t.params = s.params

/-- The outcome with its next state mapped. -/
def mapNext (f : State → State) : Host.Outcome State Fault Refusal → Host.Outcome State Fault Refusal
  | .next t => .next (f t)
  | .fault x => .fault x
  | .refused x => .refused x

/-- The instructions that store to memory (R58). -/
def Stores : Instr → Prop
  | .movsb | .movsw | .stosb | .stosw | .pushR16 _ | .pushf | .pusha | .callRel16 _ => True
  | _ => False

end Sys2Proof.Claims

open Sys2Proof Sys2Proof.Machine Sys2Proof.Claims

/-! ### Decoding and encoding -/

/-- Ten words of the bytes of R91, one or more per family, decode to the instruction they stand for. R91 gives the bytes, the
opcode first; that the first byte stands in bits 7..0 of the number is the model's numbering (log entry 18). -/
def Obligations.SampleWordsDecode : Prop :=
  decodeTableWord 16 0xC400 = some (.addRm8R8 .ah .al) ∧
  decodeTableWord 16 0xC402 = some (.addR8Rm8 .al .ah) ∧
  decodeTableWord 8 0x27 = some .daa ∧
  decodeTableWord 16 0xD3D3 = some (.rclRm16Cl .bx) ∧
  decodeTableWord 8 0xA5 = some .movsw ∧
  decodeTableWord 8 0x54 = some (.pushR16 .sp) ∧
  decodeTableWord 24 0xFFFDE8 = some (.callRel16 0xFFFD) ∧
  decodeTableWord 16 0x21CD = some (.intImm8 0x21) ∧
  decodeTableWord 16 0xD88E = some (.movDsRm16 .ax) ∧
  decodeTableWord 24 0x4C00B8 = some (.movR16Imm16 .ax 0x4C00)

/-- Decoding an encoded instruction, whatever bytes follow, gives it back and leaves those bytes. -/
def Obligations.DecodeOfEncode : Prop :=
  ∀ (i : Instr) (rest : List Byte), decode (encode i ++ rest) = .ok (i, rest)

/-- Bytes that decode are the encoding of the instruction they decode to, followed by the bytes left over: every
instruction has one encoding. -/
def Obligations.EncodeOfDecode : Prop :=
  ∀ (bs rest : List Byte) (i : Instr), decode bs = .ok (i, rest) → bs = encode i ++ rest

/-- R85: after an opcode that takes a ModR/M byte, the byte decodes exactly when mod = 3 and the reg field maps. -/
def Obligations.ModrmAcceptedExactly : Prop :=
  ∀ (opc m : Byte) (rest : List Byte) (u : ModrmUse), modrmUse opc = some u →
    ((∃ i, decode (opc :: m :: rest) = .ok (i, rest)) ↔ ModrmWellFormed u m) ∧
    (¬ ModeWellFormed m → decode (opc :: m :: rest) = .error (.mode m)) ∧
    (ModeWellFormed m → ¬ FieldWellFormed u m → decode (opc :: m :: rest) = .error (.field m))

/-- R95 and R92: the length of an instruction is known from its opcode byte alone, and exactly the 168 bytes of R92 are
unassigned: no instruction begins with one, whatever follows it, and with every other byte some instruction begins. -/
def Obligations.LengthFromOpcode : Prop :=
  (∀ i : Instr, (encode i).head?.bind lengthOf = some (encode i).length) ∧
  (∀ opc : Byte, lengthOf opc = none ↔ Unassigned opc) ∧
  (∀ (opc : Byte) (rest : List Byte), Unassigned opc → decode (opc :: rest) = .error (.unassigned opc)) ∧
  (∀ opc : Byte, ¬ Unassigned opc → ∃ i : Instr, (encode i).head? = some opc)

/-- R23: the register field numbers; of the segment fields only 1 (CS) and 3 (DS) map. -/
def Obligations.FieldNumbering : Prop :=
  (List.finRange 8).map (fun f => Reg8.ofField (BitVec.ofFin f)) = [.al, .cl, .dl, .bl, .ah, .ch, .dh, .bh] ∧
  (List.finRange 8).map (fun f => Reg16.ofField (BitVec.ofFin f)) = [.ax, .cx, .dx, .bx, .sp, .bp, .si, .di] ∧
  ∀ f : BitVec 3,
    decode [0x8C, direct f 0] =
      (if f = 1 then .ok (.movRm16Cs .ax, []) else if f = 3 then .ok (.movRm16Ds .ax, []) else .error (.field (direct f 0))) ∧
    decode [0x8E, direct f 0] =
      (if f = 1 then .ok (.movCsRm16 .ax, []) else if f = 3 then .ok (.movDsRm16 .ax, []) else .error (.field (direct f 0)))

/-! ### The step -/

/-- R100 to R103: when the bytes at CS:IP decode to an instruction, a step is that instruction's execution. Nothing is added
around it: `exec` holds the whole cycle, the advance of IP and TICKS included. -/
def Obligations.StepRunsDecodedInstruction : Prop :=
  ∀ (s : State) (bs : List Byte) (i : Instr), CanFetch s → decode bs = .ok (i, []) →
    s.ip.toNat + bs.length ≤ 0x10000 → lin s.cs s.ip + bs.length ≤ 524288 →
    (∀ k (h : k < bs.length), s.mem.read (lin s.cs s.ip + k) = bs[k]) →
    step s = exec i s

/-- R99 and R262: a step over the budget ends the run before anything is fetched and changes RUN alone. -/
def Obligations.BudgetEndsRun : Prop :=
  ∀ s : State, s.run = .running → s.ticks > s.params.tickBudget →
    step s = .next { s with run := .halted .budgetExhausted }

/-- R98: from Halted there is no step: the model refuses it by name (log entry 3 is the form of that refusal). -/
def Obligations.HaltedHasNoStep : Prop :=
  ∀ (s : State) (o : RunOutcome), s.run = .halted o → step s = .refused .halted

/-- R100, R101, R56 and R52: the faults of the fetch and of consuming operand bytes, each with its info and the CS and
IP0 of the instruction. The clauses exclude each other. -/
def Obligations.FetchFaults : Prop :=
  ∀ s : State, CanFetch s →
    (lin s.cs s.ip ≥ 524288 → step s = .fault (.fatal (.addressRange (lin s.cs s.ip)) s.cs s.ip)) ∧
    (∀ opc, lin s.cs s.ip < 524288 → s.mem.read (lin s.cs s.ip) = opc →
      (Unassigned opc → step s = .fault (.fatal (.unassignedOpcode opc) s.cs s.ip)) ∧
      (∀ n, lengthOf opc = some n → 2 ≤ n → s.ip = 0xFFFF →
        step s = .fault (.fatal (.offsetWrap s.cs 0xFFFF) s.cs s.ip)) ∧
      (∀ n, lengthOf opc = some n → 2 ≤ n → s.ip ≠ 0xFFFF → lin s.cs s.ip + 1 ≥ 524288 →
        step s = .fault (.fatal (.addressRange (lin s.cs s.ip + 1)) s.cs s.ip)) ∧
      (lengthOf opc = some 3 → s.ip = 0xFFFE → lin s.cs s.ip + 1 < 524288 →
        step s = .fault (.fatal (.offsetWrap s.cs 0xFFFF) s.cs s.ip)) ∧
      (lengthOf opc = some 3 → s.ip ≠ 0xFFFF → s.ip ≠ 0xFFFE → lin s.cs s.ip + 1 < 524288 →
        lin s.cs s.ip + 2 ≥ 524288 →
        step s = .fault (.fatal (.addressRange (lin s.cs s.ip + 2)) s.cs s.ip)))

/-- R84, R85 and R93: a consumed ModR/M byte with mod ≠ 3 ends the run with MODRM_MODE; one with mod = 3 whose reg field
maps to nothing, or is not the extension, with MODRM_FIELD. -/
def Obligations.ModrmFaults : Prop :=
  ∀ (s : State) (opc m : Byte) (u : ModrmUse), CanFetch s → s.ip ≠ 0xFFFF → lin s.cs s.ip + 1 < 524288 →
    s.mem.read (lin s.cs s.ip) = opc → s.mem.read (lin s.cs s.ip + 1) = m → modrmUse opc = some u →
    (¬ ModeWellFormed m → step s = .fault (.fatal (.modrmMode m) s.cs s.ip)) ∧
    (ModeWellFormed m → ¬ FieldWellFormed u m → step s = .fault (.fatal (.modrmField m) s.cs s.ip))

/-! ### Memory -/

/-- R51: the linear address, never masked, and its range; two pairs can name one address. -/
def Obligations.LinearAddress : Prop :=
  (∀ s o : Word, lin s o = s.toNat * 16 + o.toNat ∧ lin s o ≤ 0x10FFEF) ∧
    lin 0xFFFF 0xFFFF = 0x10FFEF ∧ lin 0x0001 0x0000 = lin 0x0000 0x0010

/-- R52 to R55: a word store then reads back, low byte at the lower address, and no other byte changes; where the offset is
0xFFFF or an address does not exist, it raises the first fault in order and so does the read. -/
def Obligations.WordStoreThenLoad : Prop :=
  ∀ (m : Memory) (seg off v : Word), m.wf = true →
    (∀ c, wordFault seg off = some c → segWrite16 m seg off v = .error c ∧ segRead16 m seg off = .error c) ∧
    (wordFault seg off = none → ∃ m', segWrite16 m seg off v = .ok m' ∧ segRead16 m' seg off = .ok v ∧
      (m'.read (lin seg off)).toNat = v.toNat % 256 ∧ (m'.read (lin seg off + 1)).toNat = v.toNat / 256 ∧
      ∀ a, a ≠ lin seg off → a ≠ lin seg off + 1 → m'.read a = m.read a)

/-- Every step keeps memory in its canonical form: addresses rise, none at or above MEM_SIZE, no byte listed as 0. -/
def Obligations.MemoryStaysCanonical : Prop :=
  ∀ s t : State, s.MemOk → step s = .next t → t.MemOk

/-! ### Reset -/

/-- R290 and R68: an image that does not fit is refused; otherwise every register holds its parameter, FLAGS = 0x0200,
memory holds the image at its offset and 0 elsewhere, RUN is Running, TICKS is 0 and the output is empty. -/
def Obligations.LaunchState : Prop :=
  ∀ p : LaunchParams,
    (p.loadOffset + p.image.length > 524288 → launch p = none) ∧
    (p.loadOffset + p.image.length ≤ 524288 → ∃ s, launch p = some s ∧ s.MemOk ∧
      s.ax = p.resetAx ∧ s.cx = p.resetCx ∧ s.dx = p.resetDx ∧ s.bx = p.resetBx ∧ s.sp = p.resetSp ∧
      s.bp = p.resetBp ∧ s.si = p.resetSi ∧ s.di = p.resetDi ∧ s.ip = p.resetIp ∧
      s.es = p.resetEs ∧ s.cs = p.resetCs ∧ s.ss = p.resetSs ∧ s.ds = p.resetDs ∧
      s.flags.toWord = 0x0200 ∧ s.run = .running ∧ s.ticks = 0 ∧ s.output = [] ∧ s.params = p.run ∧
      (∀ k (h : k < p.image.length), s.mem.read (p.loadOffset + k) = p.image[k]) ∧
      ∀ a, (a < p.loadOffset ∨ p.loadOffset + p.image.length ≤ a) → s.mem.read a = 0)

/-- The state the host starts from is the launch of the spec's test configuration (D38) with an empty image. The 13 register
values and the three parameters are the model's choice among OPEN ones (log entries 4 and 5). -/
def Obligations.ResetIsTestLaunch : Prop :=
  launch (.test []) = some State.reset ∧ State.reset.MemOk ∧ CanFetch State.reset

/-! ### Arithmetic and logic -/

/-- R123: ADD, every form. -/
def Obligations.AddBytes : Prop :=
  ∀ (s : State) (d r : Reg8) (imm : Byte),
    encode (.addRm8R8 d r) = [0x00, direct r.field d.field] ∧
    encode (.addR8Rm8 d r) = [0x02, direct d.field r.field] ∧
    encode (.addAlImm8 imm) = [0x04, imm] ∧
    AddsTo (.addRm8R8 d r) s d (s.reg8 r) 0 ∧
    AddsTo (.addR8Rm8 d r) s d (s.reg8 r) 0 ∧
    AddsTo (.addAlImm8 imm) s .al imm 0

/-- R124: ADC, every form; the carry-in is CF. -/
def Obligations.AddWithCarryBytes : Prop :=
  ∀ (s : State) (d r : Reg8) (imm : Byte),
    encode (.adcRm8R8 d r) = [0x10, direct r.field d.field] ∧
    encode (.adcR8Rm8 d r) = [0x12, direct d.field r.field] ∧
    encode (.adcAlImm8 imm) = [0x14, imm] ∧
    AddsTo (.adcRm8R8 d r) s d (s.reg8 r) (s.flag .cf).toNat ∧
    AddsTo (.adcR8Rm8 d r) s d (s.reg8 r) (s.flag .cf).toNat ∧
    AddsTo (.adcAlImm8 imm) s .al imm (s.flag .cf).toNat

/-- R125: SUB, every form. -/
def Obligations.SubtractBytes : Prop :=
  ∀ (s : State) (d r : Reg8) (imm : Byte),
    encode (.subRm8R8 d r) = [0x28, direct r.field d.field] ∧
    encode (.subR8Rm8 d r) = [0x2A, direct d.field r.field] ∧
    encode (.subAlImm8 imm) = [0x2C, imm] ∧
    SubtractsFrom (.subRm8R8 d r) s d (s.reg8 r) ∧
    SubtractsFrom (.subR8Rm8 d r) s d (s.reg8 r) ∧
    SubtractsFrom (.subAlImm8 imm) s .al imm

/-- R126: CMP, every form; no register is written. -/
def Obligations.CompareBytes : Prop :=
  ∀ (s : State) (d r : Reg8) (imm : Byte),
    encode (.cmpRm8R8 d r) = [0x38, direct r.field d.field] ∧
    encode (.cmpR8Rm8 d r) = [0x3A, direct d.field r.field] ∧
    encode (.cmpAlImm8 imm) = [0x3C, imm] ∧
    Compares (.cmpRm8R8 d r) s (s.reg8 d) (s.reg8 r) ∧
    Compares (.cmpR8Rm8 d r) s (s.reg8 d) (s.reg8 r) ∧
    Compares (.cmpAlImm8 imm) s (s.reg8 .al) imm

/-- R127 to R129: AND, OR and XOR, every form. -/
def Obligations.BitwiseBytes : Prop :=
  ∀ (s : State) (d r : Reg8) (imm : Byte),
    encode (.andRm8R8 d r) = [0x20, direct r.field d.field] ∧
    encode (.andR8Rm8 d r) = [0x22, direct d.field r.field] ∧
    encode (.andAlImm8 imm) = [0x24, imm] ∧
    encode (.orRm8R8 d r) = [0x08, direct r.field d.field] ∧
    encode (.orR8Rm8 d r) = [0x0A, direct d.field r.field] ∧
    encode (.orAlImm8 imm) = [0x0C, imm] ∧
    encode (.xorRm8R8 d r) = [0x30, direct r.field d.field] ∧
    encode (.xorR8Rm8 d r) = [0x32, direct d.field r.field] ∧
    encode (.xorAlImm8 imm) = [0x34, imm] ∧
    WritesBitwise (.andRm8R8 d r) s d (s.reg8 d &&& s.reg8 r) ∧
    WritesBitwise (.andR8Rm8 d r) s d (s.reg8 d &&& s.reg8 r) ∧
    WritesBitwise (.andAlImm8 imm) s .al (s.reg8 .al &&& imm) ∧
    WritesBitwise (.orRm8R8 d r) s d (s.reg8 d ||| s.reg8 r) ∧
    WritesBitwise (.orR8Rm8 d r) s d (s.reg8 d ||| s.reg8 r) ∧
    WritesBitwise (.orAlImm8 imm) s .al (s.reg8 .al ||| imm) ∧
    WritesBitwise (.xorRm8R8 d r) s d (s.reg8 d ^^^ s.reg8 r) ∧
    WritesBitwise (.xorR8Rm8 d r) s d (s.reg8 d ^^^ s.reg8 r) ∧
    WritesBitwise (.xorAlImm8 imm) s .al (s.reg8 .al ^^^ imm)

/-- The overflow flag of `Add8` and `Sub8` is "the standard sign-overflow test": set exactly when the signed result does not
fit in a byte (R120, R121; D30). -/
def Obligations.OverflowIsSigned : Prop :=
  ∀ (a b : Byte) (c : Bool),
    ((add8 a b c).status.of = true ↔ ¬ (-128 ≤ a.toInt + b.toInt + c.toNat ∧ a.toInt + b.toInt + c.toNat ≤ 127)) ∧
    ((sub8 a b).status.of = true ↔ ¬ (-128 ≤ a.toInt - b.toInt ∧ a.toInt - b.toInt ≤ 127))

/-- R130: DAA. Nothing is said of the draws: AF where the low nibble is not corrected, ZF, SF, PF and OF (log entry 7). -/
def Obligations.DecimalAdjust : Prop :=
  encode .daa = [0x27] ∧ ∀ s : State, ∃ t, exec .daa s = .next t ∧
      (t.reg8 .al).toNat =
        ((s.reg8 .al).toNat + (if LowCorrected s then 0x06 else 0) + (if HighCorrected s then 0x60 else 0)) % 256 ∧
      t.flag .cf = decide (HighCorrected s) ∧ (LowCorrected s → t.flag .af = true) ∧
      BytesKept .al s t ∧ FlagBitsKept statusBits s t ∧ RegisterOnly 1 s t

/-- R131: RCL. The loop's body is iterated CL times, the count not masked; nothing is said of OF at count 0, a draw (log
entry 7). -/
def Obligations.RotateLeftThroughCarry : Prop :=
  ∀ (s : State) (rm : Reg16),
    encode (.rclRm16Cl rm) = [0xD3, direct 2 rm.field] ∧
    ∃ t, exec (.rclRm16Cl rm) s = .next t ∧
      ((t.reg16 rm).toNat, (t.flag .cf).toNat) =
        (fun x : Nat × Nat => ((x.1 * 2 + x.2) % 65536, x.1 / 32768))^[(s.reg8 .cl).toNat]
          ((s.reg16 rm).toNat, (s.flag .cf).toNat) ∧
      ((s.reg8 .cl).toNat = 1 → t.flag .of = (t.flag .cf ^^ (t.reg16 rm).getLsbD 15)) ∧
      ((s.reg8 .cl).toNat ≥ 2 → t.flag .of = false) ∧
      WordsKept [rm] s t ∧ FlagBitsKept [0, 11] s t ∧ RegisterOnly 2 s t

/-- RCL is a rotation of the 17 bits CF : operand, so its count matters modulo 17 only (a corner case R131 derives). -/
def Obligations.RotateIsSeventeenBits : Prop :=
  ∀ (s t : State) (rm : Reg16), exec (.rclRm16Cl rm) s = .next t →
    (t.flag .cf).toNat * 65536 + (t.reg16 rm).toNat =
      ((s.flag .cf).toNat * 65536 + (s.reg16 rm).toNat) * 2 ^ ((s.reg8 .cl).toNat % 17) % 131072 +
      ((s.flag .cf).toNat * 65536 + (s.reg16 rm).toNat) * 2 ^ ((s.reg8 .cl).toNat % 17) / 131072

/-- R132: DEC, every register. Nothing is said of CF, a draw (log entry 7). -/
def Obligations.DecrementWord : Prop :=
  ∀ (s : State) (r : Reg16),
    encode (.decR16 r) = [withField 0x48 r.field] ∧
    ∃ t, exec (.decR16 r) s = .next t ∧
      (t.reg16 r).toNat = ((s.reg16 r).toNat + 65535) % 65536 ∧
      t.flag .of = decide ((s.reg16 r).toNat = 0x8000) ∧
      t.flag .af = decide ((s.reg16 r).toNat % 16 = 0) ∧
      t.flag .zf = decide ((t.reg16 r).toNat = 0) ∧
      t.flag .sf = decide ((t.reg16 r).toNat ≥ 0x8000) ∧
      t.flag .pf = evenOnes (BitVec.ofNat 8 (t.reg16 r).toNat) ∧
      WordsKept [r] s t ∧ FlagBitsKept statusBits s t ∧ RegisterOnly 1 s t

/-- R133: INC of a byte register changes no flag. -/
def Obligations.IncrementByte : Prop :=
  ∀ (s : State) (rm : Reg8),
    encode (.incRm8 rm) = [0xFE, direct 0 rm.field] ∧
    ∃ t, exec (.incRm8 rm) s = .next t ∧
      (t.reg8 rm).toNat = ((s.reg8 rm).toNat + 1) % 256 ∧
      BytesKept rm s t ∧ t.flags = s.flags ∧ RegisterOnly 2 s t

/-! ### Moves -/

/-- R240, R242 and R246: the byte moves. -/
def Obligations.MoveByte : Prop :=
  ∀ (s : State) (d r : Reg8) (imm : Byte),
    encode (.movRm8R8 d r) = [0x88, direct r.field d.field] ∧
    encode (.movR8Rm8 d r) = [0x8A, direct d.field r.field] ∧
    encode (.movR8Imm8 d imm) = [withField 0xB0 d.field, imm] ∧
    MovesByte (.movRm8R8 d r) s d (s.reg8 r) ∧
    MovesByte (.movR8Rm8 d r) s d (s.reg8 r) ∧
    MovesByte (.movR8Imm8 d imm) s d imm

/-- R241, R243, R244 and R247: the word moves to a general or pointer/index register. -/
def Obligations.MoveWord : Prop :=
  ∀ (s : State) (d r : Reg16) (imm : Word),
    encode (.movRm16R16 d r) = [0x89, direct r.field d.field] ∧
    encode (.movR16Rm16 d r) = [0x8B, direct d.field r.field] ∧
    encode (.movRm16Cs d) = [0x8C, direct 1 d.field] ∧
    encode (.movRm16Ds d) = [0x8C, direct 3 d.field] ∧
    encode (.movR16Imm16 d imm) =
      [withField 0xB8 d.field, BitVec.ofNat 8 imm.toNat, BitVec.ofNat 8 (imm.toNat / 256)] ∧
    MovesWord (.movRm16R16 d r) 2 s d (s.reg16 r) ∧
    MovesWord (.movR16Rm16 d r) 2 s d (s.reg16 r) ∧
    MovesWord (.movRm16Cs d) 2 s d s.cs ∧
    MovesWord (.movRm16Ds d) 2 s d s.ds ∧
    MovesWord (.movR16Imm16 d imm) 3 s d imm

/-- R245: MOV to CS or DS writes that segment register alone; execution goes on at the same offset of the new CS. -/
def Obligations.MoveToSegment : Prop :=
  ∀ (s : State) (rm : Reg16),
    encode (.movCsRm16 rm) = [0x8E, direct 1 rm.field] ∧
    encode (.movDsRm16 rm) = [0x8E, direct 3 rm.field] ∧
    (∃ t, exec (.movCsRm16 rm) s = .next t ∧ t.cs = s.reg16 rm ∧ t.es = s.es ∧ t.ss = s.ss ∧ t.ds = s.ds ∧
      WordsKept [] s t ∧ t.flags = s.flags ∧ SameMemory s t ∧ OutsideKept s t ∧ EndsAt (s.ip + 2) s t) ∧
    (∃ t, exec (.movDsRm16 rm) s = .next t ∧ t.ds = s.reg16 rm ∧ t.es = s.es ∧ t.ss = s.ss ∧ t.cs = s.cs ∧
      WordsKept [] s t ∧ t.flags = s.flags ∧ SameMemory s t ∧ OutsideKept s t ∧ EndsAt (s.ip + 2) s t)

/-- R22: the byte halves alias the word: G = GH * 256 + GL, writing a half leaves the other half, and writing the word
writes both. -/
def Obligations.ByteHalvesAlias : Prop :=
  ∀ (s : State) (h l : Byte) (v : Word),
    (∀ g ∈ [(Reg16.ax, Reg8.ah, Reg8.al), (.cx, .ch, .cl), (.dx, .dh, .dl), (.bx, .bh, .bl)],
      (s.reg16 g.1).toNat = (s.reg8 g.2.1).toNat * 256 + (s.reg8 g.2.2).toNat ∧
      (((s.setReg8 g.2.1 h).setReg8 g.2.2 l).reg16 g.1).toNat = h.toNat * 256 + l.toNat ∧
      (s.setReg8 g.2.1 h).reg8 g.2.1 = h ∧ (s.setReg8 g.2.1 h).reg8 g.2.2 = s.reg8 g.2.2 ∧
      (s.setReg8 g.2.2 l).reg8 g.2.2 = l ∧ (s.setReg8 g.2.2 l).reg8 g.2.1 = s.reg8 g.2.1 ∧
      ((s.setReg16 g.1 v).reg8 g.2.1).toNat = v.toNat / 256 ∧ ((s.setReg16 g.1 v).reg8 g.2.2).toNat = v.toNat % 256)

/-! ### Strings -/

/-- R161: MOVSB. -/
def Obligations.MoveStringByte : Prop :=
  encode .movsb = [0xA4] ∧ ∀ s : State,
    FaultsWith .movsb s [byteFault s.ds s.si, byteFault s.es s.di] ∧
    (s.MemOk → byteFault s.ds s.si = none → byteFault s.es s.di = none → ∃ t, exec .movsb s = .next t ∧
      t.mem.read (lin s.es s.di) = s.mem.read (lin s.ds s.si) ∧
      (∀ a, a ≠ lin s.es s.di → t.mem.read a = s.mem.read a) ∧
      t.si.toNat = stepped s s.si 1 ∧ t.di.toNat = stepped s s.di 1 ∧
      WordsKept [.si, .di] s t ∧ SameSegments s t ∧ t.flags = s.flags ∧ OutsideKept s t ∧ EndsAt (s.ip + 1) s t)

/-- R162: MOVSW. -/
def Obligations.MoveStringWord : Prop :=
  encode .movsw = [0xA5] ∧ ∀ s : State,
    FaultsWith .movsw s [wordFault s.ds s.si, wordFault s.es s.di] ∧
    (s.MemOk → wordFault s.ds s.si = none → wordFault s.es s.di = none → ∃ t, exec .movsw s = .next t ∧
      wordAt t.mem (lin s.es s.di) = wordAt s.mem (lin s.ds s.si) ∧
      MemoryKeptOutsideWord (lin s.es s.di) s t ∧
      t.si.toNat = stepped s s.si 2 ∧ t.di.toNat = stepped s s.di 2 ∧
      WordsKept [.si, .di] s t ∧ SameSegments s t ∧ t.flags = s.flags ∧ OutsideKept s t ∧ EndsAt (s.ip + 1) s t)

/-- R163 and R164: LODSB and LODSW step SI up whatever DF holds. -/
def Obligations.LoadString : Prop :=
  encode .lodsb = [0xAC] ∧ encode .lodsw = [0xAD] ∧ ∀ s : State,
    FaultsWith .lodsb s [byteFault s.ds s.si] ∧ FaultsWith .lodsw s [wordFault s.ds s.si] ∧
    (byteFault s.ds s.si = none → ∃ t, exec .lodsb s = .next t ∧
      t.reg8 .al = s.mem.read (lin s.ds s.si) ∧ t.reg8 .ah = s.reg8 .ah ∧ t.si = s.si + 1 ∧
      WordsKept [.ax, .si] s t ∧ SameSegments s t ∧ t.flags = s.flags ∧ SameMemory s t ∧ OutsideKept s t ∧
      EndsAt (s.ip + 1) s t) ∧
    (wordFault s.ds s.si = none → ∃ t, exec .lodsw s = .next t ∧
      t.ax.toNat = wordAt s.mem (lin s.ds s.si) ∧ t.si = s.si + 2 ∧
      WordsKept [.ax, .si] s t ∧ SameSegments s t ∧ t.flags = s.flags ∧ SameMemory s t ∧ OutsideKept s t ∧
      EndsAt (s.ip + 1) s t)

/-- R165 and R166: STOSB and STOSW step DI up whatever DF holds. -/
def Obligations.StoreString : Prop :=
  encode .stosb = [0xAA] ∧ encode .stosw = [0xAB] ∧ ∀ s : State,
    FaultsWith .stosb s [byteFault s.es s.di] ∧ FaultsWith .stosw s [wordFault s.es s.di] ∧
    (s.MemOk → byteFault s.es s.di = none → ∃ t, exec .stosb s = .next t ∧
      t.mem.read (lin s.es s.di) = s.reg8 .al ∧ (∀ a, a ≠ lin s.es s.di → t.mem.read a = s.mem.read a) ∧
      t.di = s.di + 1 ∧
      WordsKept [.di] s t ∧ SameSegments s t ∧ t.flags = s.flags ∧ OutsideKept s t ∧ EndsAt (s.ip + 1) s t) ∧
    (s.MemOk → wordFault s.es s.di = none → ∃ t, exec .stosw s = .next t ∧
      wordAt t.mem (lin s.es s.di) = s.ax.toNat ∧ MemoryKeptOutsideWord (lin s.es s.di) s t ∧
      t.di = s.di + 2 ∧
      WordsKept [.di] s t ∧ SameSegments s t ∧ t.flags = s.flags ∧ OutsideKept s t ∧ EndsAt (s.ip + 1) s t)

/-! ### Stack -/

/-- R180 and R182: PUSH, every register; `PUSH SP` pushes the lowered SP. -/
def Obligations.PushWord : Prop :=
  ∀ (s : State) (r : Reg16),
    encode (.pushR16 r) = [withField 0x50 r.field] ∧
    FaultsWith (.pushR16 r) s [wordFault s.ss (s.sp - 2)] ∧
    (s.MemOk → wordFault s.ss (s.sp - 2) = none → ∃ t, exec (.pushR16 r) s = .next t ∧
      t.sp = s.sp - 2 ∧
      wordAt t.mem (lin s.ss (s.sp - 2)) = (if r = .sp then s.sp - 2 else s.reg16 r).toNat ∧
      MemoryKeptOutsideWord (lin s.ss (s.sp - 2)) s t ∧
      WordsKept [.sp] s t ∧ SameSegments s t ∧ t.flags = s.flags ∧ OutsideKept s t ∧ EndsAt (s.ip + 1) s t)

/-- R181 and R183: POP, every register; `POP SP` leaves the popped value plus 2. -/
def Obligations.PopWord : Prop :=
  ∀ (s : State) (r : Reg16),
    encode (.popR16 r) = [withField 0x58 r.field] ∧
    FaultsWith (.popR16 r) s [wordFault s.ss s.sp] ∧
    (wordFault s.ss s.sp = none → ∃ t, exec (.popR16 r) s = .next t ∧
      (r ≠ .sp → (t.reg16 r).toNat = wordAt s.mem (lin s.ss s.sp) ∧ t.sp = s.sp + 2) ∧
      (r = .sp → t.sp.toNat = (wordAt s.mem (lin s.ss s.sp) + 2) % 65536) ∧
      WordsKept [r, .sp] s t ∧ SameSegments s t ∧ t.flags = s.flags ∧ SameMemory s t ∧ OutsideKept s t ∧
      EndsAt (s.ip + 1) s t)

/-- R184: PUSHA pushes the eight registers in order, the SP pushed being the one before the instruction. -/
def Obligations.PushAll : Prop :=
  encode .pusha = [0x60] ∧ ∀ s : State,
    FaultsWith .pusha s
      [wordFault s.ss (s.sp - 2), wordFault s.ss (s.sp - 4), wordFault s.ss (s.sp - 6), wordFault s.ss (s.sp - 8),
        wordFault s.ss (s.sp - 10), wordFault s.ss (s.sp - 12), wordFault s.ss (s.sp - 14),
        wordFault s.ss (s.sp - 16)] ∧
    (s.MemOk →
      (∀ k ∈ [2, 4, 6, 8, 10, 12, 14, 16], wordFault s.ss (s.sp - BitVec.ofNat 16 k) = none) →
      ∃ t, exec .pusha s = .next t ∧
        t.sp = s.sp - 16 ∧
        (∀ p ∈ [(2, s.ax), (4, s.cx), (6, s.dx), (8, s.bx), (10, s.sp), (12, s.bp), (14, s.si), (16, s.di)],
          wordAt t.mem (lin s.ss (s.sp - BitVec.ofNat 16 p.1)) = p.2.toNat) ∧
        (∀ a, (∀ k ∈ [2, 4, 6, 8, 10, 12, 14, 16],
            a ≠ lin s.ss (s.sp - BitVec.ofNat 16 k) ∧ a ≠ lin s.ss (s.sp - BitVec.ofNat 16 k) + 1) →
          t.mem.read a = s.mem.read a) ∧
        WordsKept [.sp] s t ∧ SameSegments s t ∧ t.flags = s.flags ∧ OutsideKept s t ∧ EndsAt (s.ip + 1) s t)

/-- R185: PUSHF pushes all 16 bits of FLAGS and changes none. -/
def Obligations.PushFlags : Prop :=
  encode .pushf = [0x9C] ∧ ∀ s : State,
    FaultsWith .pushf s [wordFault s.ss (s.sp - 2)] ∧
    (s.MemOk → wordFault s.ss (s.sp - 2) = none → ∃ t, exec .pushf s = .next t ∧
      t.sp = s.sp - 2 ∧ wordAt t.mem (lin s.ss (s.sp - 2)) = s.flags.toWord.toNat ∧
      MemoryKeptOutsideWord (lin s.ss (s.sp - 2)) s t ∧
      WordsKept [.sp] s t ∧ SameSegments s t ∧ t.flags = s.flags ∧ OutsideKept s t ∧ EndsAt (s.ip + 1) s t)

/-- R186: POPF writes all 16 bits of FLAGS. -/
def Obligations.PopFlags : Prop :=
  encode .popf = [0x9D] ∧ ∀ s : State,
    FaultsWith .popf s [wordFault s.ss s.sp] ∧
    (wordFault s.ss s.sp = none → ∃ t, exec .popf s = .next t ∧
      t.flags.toWord.toNat = wordAt s.mem (lin s.ss s.sp) ∧ t.sp = s.sp + 2 ∧
      WordsKept [.sp] s t ∧ SameSegments s t ∧ SameMemory s t ∧ OutsideKept s t ∧ EndsAt (s.ip + 1) s t)

/-- R29: where each flag stands in the word PUSHF pushes. -/
def Obligations.FlagPositions : Prop :=
  ∀ s : State,
    s.flags.toWord.getLsbD 0 = s.flag .cf ∧ s.flags.toWord.getLsbD 2 = s.flag .pf ∧
    s.flags.toWord.getLsbD 4 = s.flag .af ∧ s.flags.toWord.getLsbD 6 = s.flag .zf ∧
    s.flags.toWord.getLsbD 7 = s.flag .sf ∧ s.flags.toWord.getLsbD 8 = s.flag .tf ∧
    s.flags.toWord.getLsbD 9 = s.flag .intf ∧ s.flags.toWord.getLsbD 10 = s.flag .df ∧
    s.flags.toWord.getLsbD 11 = s.flag .of

/-! ### Control transfer -/

/-- R200 to R205: JMP, JB, JBE, JZ and JNZ. -/
def Obligations.RelativeJumps : Prop :=
  ∀ (s : State) (d : Byte),
    encode (.jmpRel8 d) = [0xEB, d] ∧ encode (.jbRel8 d) = [0x72, d] ∧ encode (.jbeRel8 d) = [0x76, d] ∧
    encode (.jzRel8 d) = [0x74, d] ∧ encode (.jnzRel8 d) = [0x75, d] ∧
    Jumps (.jmpRel8 d) s d True ∧
    Jumps (.jbRel8 d) s d (s.flag .cf = true) ∧
    Jumps (.jbeRel8 d) s d (s.flag .cf = true ∨ s.flag .zf = true) ∧
    Jumps (.jzRel8 d) s d (s.flag .zf = true) ∧
    Jumps (.jnzRel8 d) s d (s.flag .zf = false)

/-- R206: LOOP lowers CX modulo 2^16 and jumps unless it became 0; no flag changes. -/
def Obligations.LoopOnCx : Prop :=
  ∀ (s : State) (d : Byte),
    encode (.loopRel8 d) = [0xE2, d] ∧
    ∃ t, exec (.loopRel8 d) s = .next t ∧
      t.cx.toNat = (s.cx.toNat + 65535) % 65536 ∧
      (t.cx ≠ 0 → EndsAt (jumpTarget s d) s t) ∧ (t.cx = 0 → EndsAt (s.ip + 2) s t) ∧
      WordsKept [.cx] s t ∧ SameSegments s t ∧ t.flags = s.flags ∧ SameMemory s t ∧ OutsideKept s t

/-- R207: CALL pushes IP0 + 2 and ends at IP0 + 3 + disp modulo 2^16. -/
def Obligations.CallNear : Prop :=
  ∀ (s : State) (disp : Word),
    encode (.callRel16 disp) = [0xE8, BitVec.ofNat 8 disp.toNat, BitVec.ofNat 8 (disp.toNat / 256)] ∧
    FaultsWith (.callRel16 disp) s [wordFault s.ss (s.sp - 2)] ∧
    (s.MemOk → wordFault s.ss (s.sp - 2) = none → ∃ t, exec (.callRel16 disp) s = .next t ∧
      t.sp = s.sp - 2 ∧ wordAt t.mem (lin s.ss (s.sp - 2)) = (s.ip.toNat + 2) % 65536 ∧
      MemoryKeptOutsideWord (lin s.ss (s.sp - 2)) s t ∧
      WordsKept [.sp] s t ∧ SameSegments s t ∧ t.flags = s.flags ∧ OutsideKept s t ∧
      EndsAt (BitVec.ofNat 16 (s.ip.toNat + 3 + disp.toNat)) s t)

/-- R208: RET of a word that is not 0 goes one past it; of 0 it ends the run with Exit(0), SP raised, IP and TICKS as they
were. -/
def Obligations.ReturnNear : Prop :=
  encode .ret = [0xC3] ∧ ∀ s : State,
    FaultsWith .ret s [wordFault s.ss s.sp] ∧
    (wordFault s.ss s.sp = none → ∃ t, exec .ret s = .next t ∧
      t.sp = s.sp + 2 ∧
      (wordAt s.mem (lin s.ss s.sp) ≠ 0 → EndsAt (BitVec.ofNat 16 (wordAt s.mem (lin s.ss s.sp) + 1)) s t) ∧
      (wordAt s.mem (lin s.ss s.sp) = 0 → t.run = .halted (.exit 0) ∧ t.ip = s.ip ∧ t.ticks = s.ticks) ∧
      WordsKept [.sp] s t ∧ SameSegments s t ∧ t.flags = s.flags ∧ SameMemory s t ∧ OutsideKept s t)

/-- A CALL and then a RET come back to the byte after the CALL with SP as it was (the source's call and return property). The
call must not start at offset 0xFFFE: its pushed word would be 0, which RET takes for the end of the run. -/
def Obligations.CallThenReturn : Prop :=
  ∀ (s : State) (disp : Word), s.MemOk → wordFault s.ss (s.sp - 2) = none → s.ip ≠ 0xFFFE →
    ∃ t u, exec (.callRel16 disp) s = .next t ∧ exec .ret t = .next u ∧
      u.ip = s.ip + 3 ∧ u.sp = s.sp ∧ u.run = s.run

/-! ### Software interrupt -/

/-- R91: INT is CD ib, for every number. R223: INT 0x10 with AH = 0x0E emits the byte in AL and goes on. That the BIOS call
changes no register, flag or memory byte is the spec's inference (R222) and the model's choice (log entry 11). -/
def Obligations.IntPrintsCharacter : Prop :=
  (∀ n : Byte, encode (.intImm8 n) = [0xCD, n]) ∧
  ∀ s : State, s.reg8 .ah = 0x0E → ∃ t, exec (.intImm8 0x10) s = .next t ∧
    t.output = s.output ++ [s.reg8 .al] ∧ IntKeeps s t ∧ EndsAt (s.ip + 2) s t

/-- R224: INT 0x21 with AH = 0x09 emits the bytes at DS:PSTR_REG up to the sentinel; it ends with ADDRESS_RANGE at the first
byte that does not exist, and with OFFSET_WRAP where no sentinel stands up to offset 0xFFFF. It holds for every PSTR_REG the
model admits, the eight word registers (log entry 19). That the BIOS call changes no register, flag or memory byte is the
spec's inference (R222) and the model's choice (log entry 11). -/
def Obligations.IntPrintsString : Prop :=
  ∀ (s : State) (k : Nat), s.reg8 .ah = 0x09 → StringReaches s k →
    ((s.reg16 s.params.pstrReg).toNat + k ≤ 0xFFFF → stringAddress s k < 524288 →
      s.mem.read (stringAddress s k) = s.params.sentinel →
      ∃ t, exec (.intImm8 0x21) s = .next t ∧
        t.output = s.output ++ (List.range k).map (fun j => s.mem.read (stringAddress s j)) ∧
        IntKeeps s t ∧ EndsAt (s.ip + 2) s t) ∧
    ((s.reg16 s.params.pstrReg).toNat + k ≤ 0xFFFF → stringAddress s k ≥ 524288 →
      exec (.intImm8 0x21) s = .fault (.fatal (.addressRange (stringAddress s k)) s.cs s.ip)) ∧
    ((s.reg16 s.params.pstrReg).toNat + k = 0x10000 →
      exec (.intImm8 0x21) s = .fault (.fatal (.offsetWrap s.ds 0x10000) s.cs s.ip))

/-- R225: INT 0x21 with AH = 0x4C ends the run with Exit(AL); IP stays at IP0 + 1 (R220, D16) and TICKS is not raised (R105).
That the BIOS call changes no register, flag or memory byte is the spec's inference (R222) and the model's choice (log entry
11). -/
def Obligations.IntExits : Prop :=
  ∀ s : State, s.reg8 .ah = 0x4C → ∃ t, exec (.intImm8 0x21) s = .next t ∧
    t.run = .halted (.exit (s.reg8 .al)) ∧ t.ip = s.ip + 1 ∧ t.ticks = s.ticks ∧ t.output = s.output ∧ IntKeeps s t

/-- R226: an unsupported number or function ends the run with its code and (n, AH). -/
def Obligations.IntUnsupported : Prop :=
  ∀ (s : State) (n : Byte),
    (n ≠ 0x10 → n ≠ 0x21 → exec (.intImm8 n) s = .fault (.fatal (.badInterrupt n (s.reg8 .ah)) s.cs s.ip)) ∧
    (n = 0x10 → s.reg8 .ah ≠ 0x0E →
      exec (.intImm8 n) s = .fault (.fatal (.badBiosFunction n (s.reg8 .ah)) s.cs s.ip)) ∧
    (n = 0x21 → s.reg8 .ah ≠ 0x09 → s.reg8 .ah ≠ 0x4C →
      exec (.intImm8 n) s = .fault (.fatal (.badBiosFunction n (s.reg8 .ah)) s.cs s.ip))

/-! ### Rules about the whole machine -/

/-- No step writes ES, SS or a launch parameter (R25 derives it for ES and SS). -/
def Obligations.StackAndExtraSegmentsFixed : Prop :=
  ∀ s t : State, step s = .next t → t.es = s.es ∧ t.ss = s.ss ∧ t.params = s.params

/-- CS changes only by MOV CS and DS only by MOV DS (R26). -/
def Obligations.SegmentWriters : Prop :=
  ∀ (i : Instr) (s t : State), exec i s = .next t →
    (t.cs ≠ s.cs → ∃ rm, i = .movCsRm16 rm) ∧ (t.ds ≠ s.ds → ∃ rm, i = .movDsRm16 rm)

/-- TF, IF, DF and the unused bits of FLAGS change only by POPF (R31, R33, R186). -/
def Obligations.ControlFlagWriters : Prop :=
  ∀ (i : Instr) (s t : State), exec i s = .next t → i ≠ .popf → FlagBitsKept statusBits s t

/-- Only the storing instructions of R58 change memory. -/
def Obligations.MemoryWriters : Prop :=
  ∀ (i : Instr) (s t : State), exec i s = .next t → ¬ Stores i → SameMemory s t

/-- R261: exactly two instructions end a run normally, INT 0x21 with AH = 0x4C, with status AL, and RET popping 0, with
status 0; any other instruction that answers a next state leaves RUN as it was. -/
def Obligations.NormalTerminations : Prop :=
  ∀ (i : Instr) (s t : State), s.run = .running → exec i s = .next t →
    (i = .intImm8 0x21 ∧ s.reg8 .ah = 0x4C → t.run = .halted (.exit (s.reg8 .al))) ∧
    (i = .ret ∧ wordAt s.mem (lin s.ss s.sp) = 0 → t.run = .halted (.exit 0)) ∧
    (¬ (i = .intImm8 0x21 ∧ s.reg8 .ah = 0x4C) → ¬ (i = .ret ∧ wordAt s.mem (lin s.ss s.sp) = 0) → t.run = .running)

/-- A step that goes on completes one instruction and adds 1 to TICKS; a step that ends the run adds none (R104, R105, R99). -/
def Obligations.TicksCountCompleted : Prop :=
  ∀ s t : State, step s = .next t →
    (t.run = .running ∧ t.ticks = s.ticks + 1) ∨ (t.isHalted = true ∧ t.ticks = s.ticks)

/-- Nothing reads the output stream: with other bytes before it a step does the same (R39: "the CORE never reads it"). -/
def Obligations.OutputNeverRead : Prop :=
  ∀ (s : State) (pre : List Byte),
    step { s with output := pre ++ s.output } = mapNext (fun t => { t with output := pre ++ t.output }) (step s)

/-- No instruction reads TICKS (R36): executed `k` ticks later it does the same, `k` ticks later. -/
def Obligations.TicksNeverRead : Prop :=
  ∀ (i : Instr) (s : State) (k : Nat),
    exec i { s with ticks := s.ticks + k } = mapNext (fun t => { t with ticks := t.ticks + k }) (exec i s)

/-- TF and IF have no effect beyond being stored and restored (R32): every instruction but PUSHF and POPF does the same
whatever they hold. -/
def Obligations.TrapAndInterruptFlagsInert : Prop :=
  ∀ (i : Instr) (s : State) (x y : Bool), i ≠ .pushf → i ≠ .popf →
    exec i { s with flags := { s.flags with tf := x, intf := y } } =
      mapNext (fun t => { t with flags := { t.flags with tf := x, intf := y } }) (exec i s)

/-- Every run ends: from any running state, within TICK_BUDGET + 1 - TICKS completed instructions and one more step, the run
has faulted or is Halted (R298). -/
def Obligations.EveryRunEnds : Prop :=
  ∀ s : State, s.run = .running → ∃ k ≤ (s.params.tickBudget + 1 - s.ticks) + 1, EndedBy k s
end

