-- ==== Sys2Proof/Laws/Decode.lean ====
section
/-! SUPPORT. The fields of registers, ModR/M bytes and opcode bytes, and the rows of the decode table. -/

namespace Sys2Proof

@[simp] theorem Reg8.ofField_field (r : Reg8) : Reg8.ofField r.field = r := by cases r <;> rfl

@[simp] theorem Reg16.ofField_field (r : Reg16) : Reg16.ofField r.field = r := by cases r <;> rfl

theorem Reg8.field_ofField (f : BitVec 3) : (Reg8.ofField f).field = f := by revert f; decide

theorem Reg16.field_ofField (f : BitVec 3) : (Reg16.ofField f).field = f := by revert f; decide

@[simp] theorem modrmMod_modrmByte (reg rm : BitVec 3) : modrmMod (modrmByte reg rm) = 3 := by
  revert reg rm; decide

@[simp] theorem modrmReg_modrmByte (reg rm : BitVec 3) : modrmReg (modrmByte reg rm) = reg := by
  revert reg rm; decide

@[simp] theorem modrmRm_modrmByte (reg rm : BitVec 3) : modrmRm (modrmByte reg rm) = rm := by
  revert reg rm; decide

/-- A register-direct ModR/M byte is made of its fields (R83, R84). -/
theorem modrmByte_fields (m : Byte) (h : modrmMod m = 3) : modrmByte (modrmReg m) (modrmRm m) = m := by
  revert m; decide

/-- A row of the table matches an opcode byte exactly when it is the row that is found: no two rows overlap (R91). -/
theorem opcodeRows_disjoint :
    opcodeRows.Pairwise fun p q => p.mask &&& q.mask &&& (p.value ^^^ q.value) ≠ 0 := by
  decide

end Sys2Proof
end

