-- ==== Sys2Proof/Laws/Memory.lean ====
section
/-! SUPPORT. The laws of byte memory: read after write, canonical form, and what each access primitive answers. -/

namespace Sys2Proof.Machine

/-! ### Canonical form -/

theorem Memory.wfFrom_cons {lo k : Nat} {b : Byte} {m : Memory} :
    Memory.wfFrom lo ((k, b) :: m) = true ↔ lo ≤ k ∧ b ≠ 0 ∧ k < Config.memSize ∧ Memory.wfFrom (k + 1) m = true := by
  simp [Memory.wfFrom, and_assoc]

theorem Memory.wfFrom_mono {lo lo' : Nat} (h : lo' ≤ lo) {m : Memory} (hm : m.wfFrom lo = true) : m.wfFrom lo' = true := by
  cases m with
  | nil => rfl
  | cons e m => exact wfFrom_cons.2 ⟨le_trans h (wfFrom_cons.1 hm).1, (wfFrom_cons.1 hm).2⟩

/-- Below its lower bound a canonical memory lists nothing. -/
theorem Memory.read_below {lo a : Nat} (h : a < lo) {m : Memory} (hm : m.wfFrom lo = true) : m.read a = 0 := by
  cases m with
  | nil => rfl
  | cons e m => simp [Memory.read, lt_of_lt_of_le h (wfFrom_cons.1 hm).1]

theorem Memory.write_wfFrom {lo a : Nat} {v : Byte} (hlo : lo ≤ a) (ha : a < Config.memSize) {m : Memory}
    (hm : m.wfFrom lo = true) : (m.write a v).wfFrom lo = true := by
  induction m generalizing lo with
  | nil =>
    simp only [Memory.write]
    split
    · rfl
    · rename_i hv
      exact wfFrom_cons.2 ⟨hlo, hv, ha, rfl⟩
  | cons e m ih =>
    obtain ⟨k, b⟩ := e
    obtain ⟨h1, h2, h3, h4⟩ := wfFrom_cons.1 hm
    simp only [Memory.write]
    split
    · split
      · exact hm
      · rename_i hak hv
        exact wfFrom_cons.2 ⟨hlo, hv, ha, wfFrom_cons.2 ⟨hak, h2, h3, h4⟩⟩
    · split
      · split
        · exact wfFrom_mono (by omega) h4
        · rename_i hak hv
          exact wfFrom_cons.2 ⟨hlo, hv, ha, by subst hak; exact h4⟩
      · exact wfFrom_cons.2 ⟨h1, h2, h3, ih (by omega) h4⟩

/-- Every store to an address that exists keeps the canonical form. -/
theorem Memory.write_wf {a : Nat} {v : Byte} (ha : a < Config.memSize) {m : Memory} (hm : m.wf = true) :
    (m.write a v).wf = true := write_wfFrom (Nat.zero_le a) ha hm

theorem Memory.writeBytes_wf {bs : List Byte} {a : Nat} (ha : a + bs.length ≤ Config.memSize) {m : Memory}
    (hm : m.wf = true) : (m.writeBytes a bs).wf = true := by
  induction bs generalizing a m with
  | nil => exact hm
  | cons b bs ih =>
    simp only [List.length_cons] at ha
    exact ih (by omega) (write_wf (by omega) hm)

/-! ### Read after write -/

theorem Memory.read_write_from {lo a : Nat} {v : Byte} {m : Memory} (hm : m.wfFrom lo = true) (c : Nat) :
    (m.write a v).read c = if c = a then v else m.read c := by
  induction m generalizing lo with
  | nil =>
    simp only [Memory.write]
    split
    · rename_i hv
      simp [Memory.read, hv]
    · by_cases hc : c = a <;> simp [Memory.read, hc]
  | cons e m ih =>
    obtain ⟨k, b⟩ := e
    have h4 := (wfFrom_cons.1 hm).2.2.2
    simp only [Memory.write]
    split
    · rename_i hak
      by_cases hv : v = 0
      · simp only [hv, if_true]
        by_cases hc : c = a
        · simp [hc, Memory.read, hak]
        · simp [hc]
      · simp only [hv, if_false]
        by_cases hc : c = a
        · simp [hc, Memory.read]
        · simp only [hc, if_false, Memory.read]
          split
          · rw [if_pos (by omega)]
          · rfl
    · rename_i hak
      split
      · rename_i hek
        subst hek
        by_cases hv : v = 0
        · simp only [hv, if_true]
          by_cases hc : c = a
          · subst hc; simpa using read_below (Nat.lt_succ_self c) h4
          · simp only [hc, if_false, Memory.read]
            split
            · exact read_below (by omega) h4
            · rfl
        · simp only [hv, if_false]
          by_cases hc : c = a
          · simp [hc, Memory.read]
          · simp [hc, Memory.read]
      · rename_i hek
        simp only [Memory.read, ih h4]
        by_cases hc : c = a
        · subst hc; simp only [if_true, if_neg hak, if_neg hek]
        · simp only [hc, if_false]

/-- R60: a store changes exactly the byte written. -/
theorem Memory.read_write {a : Nat} {v : Byte} {m : Memory} (hm : m.wf = true) (c : Nat) :
    (m.write a v).read c = if c = a then v else m.read c := read_write_from hm c

/-! ### The access primitives, once each -/

theorem memRead8_ok {m : Memory} {a : Nat} {b : Byte} :
    memRead8 m a = .ok b ↔ a < Config.memSize ∧ b = m.read a := by
  unfold memRead8; split
  · simp; omega
  · simp only [Except.ok.injEq]; constructor
    · intro h; exact ⟨by omega, h.symm⟩
    · intro h; exact h.2.symm

theorem memWrite8_ok {m m' : Memory} {a : Nat} {v : Byte} :
    memWrite8 m a v = .ok m' ↔ a < Config.memSize ∧ m' = m.write a v := by
  unfold memWrite8; split
  · simp; omega
  · simp only [Except.ok.injEq]; constructor
    · intro h; exact ⟨by omega, h.symm⟩
    · intro h; exact h.2.symm

theorem memRead16_ok {m : Memory} {a : Nat} {w : Word} :
    memRead16 m a = .ok w ↔ a + 1 < Config.memSize ∧ w = wordOf (m.read a) (m.read (a + 1)) := by
  unfold memRead16; split
  · simp; omega
  · split
    · simp; omega
    · simp only [Except.ok.injEq]; constructor
      · intro h; exact ⟨by omega, h.symm⟩
      · intro h; exact h.2.symm

theorem memWrite16_ok {m m' : Memory} {a : Nat} {v : Word} :
    memWrite16 m a v = .ok m' ↔
      a + 1 < Config.memSize ∧ m' = (m.write a (lowByte v)).write (a + 1) (highByte v) := by
  unfold memWrite16; split
  · simp; omega
  · split
    · simp; omega
    · simp only [Except.ok.injEq]; constructor
      · intro h; exact ⟨by omega, h.symm⟩
      · intro h; exact h.2.symm

theorem segRead16_ok {m : Memory} {s o w : Word} :
    segRead16 m s o = .ok w ↔
      o ≠ 0xFFFF ∧ lin s o + 1 < Config.memSize ∧ w = wordOf (m.read (lin s o)) (m.read (lin s o + 1)) := by
  unfold segRead16; split
  · simp_all
  · simp_all [memRead16_ok]

theorem segWrite16_ok {m m' : Memory} {s o v : Word} :
    segWrite16 m s o v = .ok m' ↔
      o ≠ 0xFFFF ∧ lin s o + 1 < Config.memSize ∧
        m' = (m.write (lin s o) (lowByte v)).write (lin s o + 1) (highByte v) := by
  unfold segWrite16; split
  · simp_all
  · simp_all [memWrite16_ok]

theorem segRead8_ok {m : Memory} {s o : Word} {b : Byte} :
    segRead8 m s o = .ok b ↔ lin s o < Config.memSize ∧ b = m.read (lin s o) := memRead8_ok

theorem segWrite8_ok {m m' : Memory} {s o : Word} {v : Byte} :
    segWrite8 m s o v = .ok m' ↔ lin s o < Config.memSize ∧ m' = m.write (lin s o) v := memWrite8_ok

/-- A word store keeps the canonical form. -/
theorem segWrite16_wf {m m' : Memory} {s o v : Word} (h : segWrite16 m s o v = .ok m') (hm : m.wf = true) : m'.wf = true := by
  obtain ⟨-, h2, rfl⟩ := segWrite16_ok.1 h
  exact Memory.write_wf h2 (Memory.write_wf (by omega) hm)

/-- A byte store keeps the canonical form. -/
theorem segWrite8_wf {m m' : Memory} {s o : Word} {v : Byte} (h : segWrite8 m s o v = .ok m') (hm : m.wf = true) :
    m'.wf = true := by
  obtain ⟨h2, rfl⟩ := segWrite8_ok.1 h
  exact Memory.write_wf h2 hm

/-- What every byte reads after a word store (R54, R60). -/
theorem read_segWrite16 {m m' : Memory} {s o v : Word} (h : segWrite16 m s o v = .ok m') (hm : m.wf = true) (c : Nat) :
    m'.read c = if c = lin s o then lowByte v else if c = lin s o + 1 then highByte v else m.read c := by
  obtain ⟨-, h2, rfl⟩ := segWrite16_ok.1 h
  rw [Memory.read_write (Memory.write_wf (by omega) hm), Memory.read_write hm]
  split
  · subst_vars; rw [if_neg (by omega)]
  · rfl

end Sys2Proof.Machine
end

