-- ==== Sys2Proof/Laws/State.lean ====
section
/-! SUPPORT. What each named update of the state does to each field, true by rfl, and how the register accessors see
the updates. -/

namespace Sys2Proof.Machine

/-! ### advanceIp -/

@[simp] theorem State.advanceIp_ax (s : State) (n : Nat) : (s.advanceIp n).ax = s.ax := rfl
@[simp] theorem State.advanceIp_cx (s : State) (n : Nat) : (s.advanceIp n).cx = s.cx := rfl
@[simp] theorem State.advanceIp_dx (s : State) (n : Nat) : (s.advanceIp n).dx = s.dx := rfl
@[simp] theorem State.advanceIp_bx (s : State) (n : Nat) : (s.advanceIp n).bx = s.bx := rfl
@[simp] theorem State.advanceIp_sp (s : State) (n : Nat) : (s.advanceIp n).sp = s.sp := rfl
@[simp] theorem State.advanceIp_bp (s : State) (n : Nat) : (s.advanceIp n).bp = s.bp := rfl
@[simp] theorem State.advanceIp_si (s : State) (n : Nat) : (s.advanceIp n).si = s.si := rfl
@[simp] theorem State.advanceIp_di (s : State) (n : Nat) : (s.advanceIp n).di = s.di := rfl
@[simp] theorem State.advanceIp_ip (s : State) (n : Nat) : (s.advanceIp n).ip = s.ip + BitVec.ofNat 16 n := rfl
@[simp] theorem State.advanceIp_es (s : State) (n : Nat) : (s.advanceIp n).es = s.es := rfl
@[simp] theorem State.advanceIp_cs (s : State) (n : Nat) : (s.advanceIp n).cs = s.cs := rfl
@[simp] theorem State.advanceIp_ss (s : State) (n : Nat) : (s.advanceIp n).ss = s.ss := rfl
@[simp] theorem State.advanceIp_ds (s : State) (n : Nat) : (s.advanceIp n).ds = s.ds := rfl
@[simp] theorem State.advanceIp_flags (s : State) (n : Nat) : (s.advanceIp n).flags = s.flags := rfl
@[simp] theorem State.advanceIp_mem (s : State) (n : Nat) : (s.advanceIp n).mem = s.mem := rfl
@[simp] theorem State.advanceIp_run (s : State) (n : Nat) : (s.advanceIp n).run = s.run := rfl
@[simp] theorem State.advanceIp_ticks (s : State) (n : Nat) : (s.advanceIp n).ticks = s.ticks := rfl
@[simp] theorem State.advanceIp_output (s : State) (n : Nat) : (s.advanceIp n).output = s.output := rfl
@[simp] theorem State.advanceIp_params (s : State) (n : Nat) : (s.advanceIp n).params = s.params := rfl
@[simp] theorem State.advanceIp_draws (s : State) (n : Nat) : (s.advanceIp n).draws = s.draws := rfl

/-! ### setMem -/

@[simp] theorem State.setMem_ax (s : State) (m : Memory) : (s.setMem m).ax = s.ax := rfl
@[simp] theorem State.setMem_cx (s : State) (m : Memory) : (s.setMem m).cx = s.cx := rfl
@[simp] theorem State.setMem_dx (s : State) (m : Memory) : (s.setMem m).dx = s.dx := rfl
@[simp] theorem State.setMem_bx (s : State) (m : Memory) : (s.setMem m).bx = s.bx := rfl
@[simp] theorem State.setMem_sp (s : State) (m : Memory) : (s.setMem m).sp = s.sp := rfl
@[simp] theorem State.setMem_bp (s : State) (m : Memory) : (s.setMem m).bp = s.bp := rfl
@[simp] theorem State.setMem_si (s : State) (m : Memory) : (s.setMem m).si = s.si := rfl
@[simp] theorem State.setMem_di (s : State) (m : Memory) : (s.setMem m).di = s.di := rfl
@[simp] theorem State.setMem_ip (s : State) (m : Memory) : (s.setMem m).ip = s.ip := rfl
@[simp] theorem State.setMem_es (s : State) (m : Memory) : (s.setMem m).es = s.es := rfl
@[simp] theorem State.setMem_cs (s : State) (m : Memory) : (s.setMem m).cs = s.cs := rfl
@[simp] theorem State.setMem_ss (s : State) (m : Memory) : (s.setMem m).ss = s.ss := rfl
@[simp] theorem State.setMem_ds (s : State) (m : Memory) : (s.setMem m).ds = s.ds := rfl
@[simp] theorem State.setMem_flags (s : State) (m : Memory) : (s.setMem m).flags = s.flags := rfl
@[simp] theorem State.setMem_mem (s : State) (m : Memory) : (s.setMem m).mem = m := rfl
@[simp] theorem State.setMem_run (s : State) (m : Memory) : (s.setMem m).run = s.run := rfl
@[simp] theorem State.setMem_ticks (s : State) (m : Memory) : (s.setMem m).ticks = s.ticks := rfl
@[simp] theorem State.setMem_output (s : State) (m : Memory) : (s.setMem m).output = s.output := rfl
@[simp] theorem State.setMem_params (s : State) (m : Memory) : (s.setMem m).params = s.params := rfl
@[simp] theorem State.setMem_draws (s : State) (m : Memory) : (s.setMem m).draws = s.draws := rfl

/-! ### terminate -/

@[simp] theorem State.terminate_ax (s : State) (st : Byte) : (s.terminate st).ax = s.ax := rfl
@[simp] theorem State.terminate_cx (s : State) (st : Byte) : (s.terminate st).cx = s.cx := rfl
@[simp] theorem State.terminate_dx (s : State) (st : Byte) : (s.terminate st).dx = s.dx := rfl
@[simp] theorem State.terminate_bx (s : State) (st : Byte) : (s.terminate st).bx = s.bx := rfl
@[simp] theorem State.terminate_sp (s : State) (st : Byte) : (s.terminate st).sp = s.sp := rfl
@[simp] theorem State.terminate_bp (s : State) (st : Byte) : (s.terminate st).bp = s.bp := rfl
@[simp] theorem State.terminate_si (s : State) (st : Byte) : (s.terminate st).si = s.si := rfl
@[simp] theorem State.terminate_di (s : State) (st : Byte) : (s.terminate st).di = s.di := rfl
@[simp] theorem State.terminate_ip (s : State) (st : Byte) : (s.terminate st).ip = s.ip := rfl
@[simp] theorem State.terminate_es (s : State) (st : Byte) : (s.terminate st).es = s.es := rfl
@[simp] theorem State.terminate_cs (s : State) (st : Byte) : (s.terminate st).cs = s.cs := rfl
@[simp] theorem State.terminate_ss (s : State) (st : Byte) : (s.terminate st).ss = s.ss := rfl
@[simp] theorem State.terminate_ds (s : State) (st : Byte) : (s.terminate st).ds = s.ds := rfl
@[simp] theorem State.terminate_flags (s : State) (st : Byte) : (s.terminate st).flags = s.flags := rfl
@[simp] theorem State.terminate_mem (s : State) (st : Byte) : (s.terminate st).mem = s.mem := rfl
@[simp] theorem State.terminate_run (s : State) (st : Byte) : (s.terminate st).run = .halted (.exit st) := rfl
@[simp] theorem State.terminate_ticks (s : State) (st : Byte) : (s.terminate st).ticks = s.ticks := rfl
@[simp] theorem State.terminate_output (s : State) (st : Byte) : (s.terminate st).output = s.output := rfl
@[simp] theorem State.terminate_params (s : State) (st : Byte) : (s.terminate st).params = s.params := rfl
@[simp] theorem State.terminate_draws (s : State) (st : Byte) : (s.terminate st).draws = s.draws := rfl

/-! ### exhaust -/

@[simp] theorem State.exhaust_ax (s : State) : (s.exhaust).ax = s.ax := rfl
@[simp] theorem State.exhaust_cx (s : State) : (s.exhaust).cx = s.cx := rfl
@[simp] theorem State.exhaust_dx (s : State) : (s.exhaust).dx = s.dx := rfl
@[simp] theorem State.exhaust_bx (s : State) : (s.exhaust).bx = s.bx := rfl
@[simp] theorem State.exhaust_sp (s : State) : (s.exhaust).sp = s.sp := rfl
@[simp] theorem State.exhaust_bp (s : State) : (s.exhaust).bp = s.bp := rfl
@[simp] theorem State.exhaust_si (s : State) : (s.exhaust).si = s.si := rfl
@[simp] theorem State.exhaust_di (s : State) : (s.exhaust).di = s.di := rfl
@[simp] theorem State.exhaust_ip (s : State) : (s.exhaust).ip = s.ip := rfl
@[simp] theorem State.exhaust_es (s : State) : (s.exhaust).es = s.es := rfl
@[simp] theorem State.exhaust_cs (s : State) : (s.exhaust).cs = s.cs := rfl
@[simp] theorem State.exhaust_ss (s : State) : (s.exhaust).ss = s.ss := rfl
@[simp] theorem State.exhaust_ds (s : State) : (s.exhaust).ds = s.ds := rfl
@[simp] theorem State.exhaust_flags (s : State) : (s.exhaust).flags = s.flags := rfl
@[simp] theorem State.exhaust_mem (s : State) : (s.exhaust).mem = s.mem := rfl
@[simp] theorem State.exhaust_run (s : State) : (s.exhaust).run = .halted .budgetExhausted := rfl
@[simp] theorem State.exhaust_ticks (s : State) : (s.exhaust).ticks = s.ticks := rfl
@[simp] theorem State.exhaust_output (s : State) : (s.exhaust).output = s.output := rfl
@[simp] theorem State.exhaust_params (s : State) : (s.exhaust).params = s.params := rfl
@[simp] theorem State.exhaust_draws (s : State) : (s.exhaust).draws = s.draws := rfl

/-! ### endCycle -/

@[simp] theorem State.endCycle_ax (s : State) : (s.endCycle).ax = s.ax := rfl
@[simp] theorem State.endCycle_cx (s : State) : (s.endCycle).cx = s.cx := rfl
@[simp] theorem State.endCycle_dx (s : State) : (s.endCycle).dx = s.dx := rfl
@[simp] theorem State.endCycle_bx (s : State) : (s.endCycle).bx = s.bx := rfl
@[simp] theorem State.endCycle_sp (s : State) : (s.endCycle).sp = s.sp := rfl
@[simp] theorem State.endCycle_bp (s : State) : (s.endCycle).bp = s.bp := rfl
@[simp] theorem State.endCycle_si (s : State) : (s.endCycle).si = s.si := rfl
@[simp] theorem State.endCycle_di (s : State) : (s.endCycle).di = s.di := rfl
@[simp] theorem State.endCycle_ip (s : State) : (s.endCycle).ip = s.ip + 1 := rfl
@[simp] theorem State.endCycle_es (s : State) : (s.endCycle).es = s.es := rfl
@[simp] theorem State.endCycle_cs (s : State) : (s.endCycle).cs = s.cs := rfl
@[simp] theorem State.endCycle_ss (s : State) : (s.endCycle).ss = s.ss := rfl
@[simp] theorem State.endCycle_ds (s : State) : (s.endCycle).ds = s.ds := rfl
@[simp] theorem State.endCycle_flags (s : State) : (s.endCycle).flags = s.flags := rfl
@[simp] theorem State.endCycle_mem (s : State) : (s.endCycle).mem = s.mem := rfl
@[simp] theorem State.endCycle_run (s : State) : (s.endCycle).run = s.run := rfl
@[simp] theorem State.endCycle_ticks (s : State) : (s.endCycle).ticks = s.ticks + 1 := rfl
@[simp] theorem State.endCycle_output (s : State) : (s.endCycle).output = s.output := rfl
@[simp] theorem State.endCycle_params (s : State) : (s.endCycle).params = s.params := rfl
@[simp] theorem State.endCycle_draws (s : State) : (s.endCycle).draws = s.draws := rfl

/-! ### drew -/

@[simp] theorem State.drew_ax (s : State) (n : Nat) : (s.drew n).ax = s.ax := rfl
@[simp] theorem State.drew_cx (s : State) (n : Nat) : (s.drew n).cx = s.cx := rfl
@[simp] theorem State.drew_dx (s : State) (n : Nat) : (s.drew n).dx = s.dx := rfl
@[simp] theorem State.drew_bx (s : State) (n : Nat) : (s.drew n).bx = s.bx := rfl
@[simp] theorem State.drew_sp (s : State) (n : Nat) : (s.drew n).sp = s.sp := rfl
@[simp] theorem State.drew_bp (s : State) (n : Nat) : (s.drew n).bp = s.bp := rfl
@[simp] theorem State.drew_si (s : State) (n : Nat) : (s.drew n).si = s.si := rfl
@[simp] theorem State.drew_di (s : State) (n : Nat) : (s.drew n).di = s.di := rfl
@[simp] theorem State.drew_ip (s : State) (n : Nat) : (s.drew n).ip = s.ip := rfl
@[simp] theorem State.drew_es (s : State) (n : Nat) : (s.drew n).es = s.es := rfl
@[simp] theorem State.drew_cs (s : State) (n : Nat) : (s.drew n).cs = s.cs := rfl
@[simp] theorem State.drew_ss (s : State) (n : Nat) : (s.drew n).ss = s.ss := rfl
@[simp] theorem State.drew_ds (s : State) (n : Nat) : (s.drew n).ds = s.ds := rfl
@[simp] theorem State.drew_flags (s : State) (n : Nat) : (s.drew n).flags = s.flags := rfl
@[simp] theorem State.drew_mem (s : State) (n : Nat) : (s.drew n).mem = s.mem := rfl
@[simp] theorem State.drew_run (s : State) (n : Nat) : (s.drew n).run = s.run := rfl
@[simp] theorem State.drew_ticks (s : State) (n : Nat) : (s.drew n).ticks = s.ticks := rfl
@[simp] theorem State.drew_output (s : State) (n : Nat) : (s.drew n).output = s.output := rfl
@[simp] theorem State.drew_params (s : State) (n : Nat) : (s.drew n).params = s.params := rfl
@[simp] theorem State.drew_draws (s : State) (n : Nat) : (s.drew n).draws = s.draws + n := rfl

/-! ### setStatus -/

@[simp] theorem State.setStatus_ax (s : State) (x : StatusFlags) : (s.setStatus x).ax = s.ax := rfl
@[simp] theorem State.setStatus_cx (s : State) (x : StatusFlags) : (s.setStatus x).cx = s.cx := rfl
@[simp] theorem State.setStatus_dx (s : State) (x : StatusFlags) : (s.setStatus x).dx = s.dx := rfl
@[simp] theorem State.setStatus_bx (s : State) (x : StatusFlags) : (s.setStatus x).bx = s.bx := rfl
@[simp] theorem State.setStatus_sp (s : State) (x : StatusFlags) : (s.setStatus x).sp = s.sp := rfl
@[simp] theorem State.setStatus_bp (s : State) (x : StatusFlags) : (s.setStatus x).bp = s.bp := rfl
@[simp] theorem State.setStatus_si (s : State) (x : StatusFlags) : (s.setStatus x).si = s.si := rfl
@[simp] theorem State.setStatus_di (s : State) (x : StatusFlags) : (s.setStatus x).di = s.di := rfl
@[simp] theorem State.setStatus_ip (s : State) (x : StatusFlags) : (s.setStatus x).ip = s.ip := rfl
@[simp] theorem State.setStatus_es (s : State) (x : StatusFlags) : (s.setStatus x).es = s.es := rfl
@[simp] theorem State.setStatus_cs (s : State) (x : StatusFlags) : (s.setStatus x).cs = s.cs := rfl
@[simp] theorem State.setStatus_ss (s : State) (x : StatusFlags) : (s.setStatus x).ss = s.ss := rfl
@[simp] theorem State.setStatus_ds (s : State) (x : StatusFlags) : (s.setStatus x).ds = s.ds := rfl
@[simp] theorem State.setStatus_flags (s : State) (x : StatusFlags) : (s.setStatus x).flags = { s.flags with cf := x.cf, pf := x.pf, af := x.af, zf := x.zf, sf := x.sf, of := x.of } := rfl
@[simp] theorem State.setStatus_mem (s : State) (x : StatusFlags) : (s.setStatus x).mem = s.mem := rfl
@[simp] theorem State.setStatus_run (s : State) (x : StatusFlags) : (s.setStatus x).run = s.run := rfl
@[simp] theorem State.setStatus_ticks (s : State) (x : StatusFlags) : (s.setStatus x).ticks = s.ticks := rfl
@[simp] theorem State.setStatus_output (s : State) (x : StatusFlags) : (s.setStatus x).output = s.output := rfl
@[simp] theorem State.setStatus_params (s : State) (x : StatusFlags) : (s.setStatus x).params = s.params := rfl
@[simp] theorem State.setStatus_draws (s : State) (x : StatusFlags) : (s.setStatus x).draws = s.draws := rfl

/-! ### setCarryOverflow -/

@[simp] theorem State.setCarryOverflow_ax (s : State) (c o : Bool) : (s.setCarryOverflow c o).ax = s.ax := rfl
@[simp] theorem State.setCarryOverflow_cx (s : State) (c o : Bool) : (s.setCarryOverflow c o).cx = s.cx := rfl
@[simp] theorem State.setCarryOverflow_dx (s : State) (c o : Bool) : (s.setCarryOverflow c o).dx = s.dx := rfl
@[simp] theorem State.setCarryOverflow_bx (s : State) (c o : Bool) : (s.setCarryOverflow c o).bx = s.bx := rfl
@[simp] theorem State.setCarryOverflow_sp (s : State) (c o : Bool) : (s.setCarryOverflow c o).sp = s.sp := rfl
@[simp] theorem State.setCarryOverflow_bp (s : State) (c o : Bool) : (s.setCarryOverflow c o).bp = s.bp := rfl
@[simp] theorem State.setCarryOverflow_si (s : State) (c o : Bool) : (s.setCarryOverflow c o).si = s.si := rfl
@[simp] theorem State.setCarryOverflow_di (s : State) (c o : Bool) : (s.setCarryOverflow c o).di = s.di := rfl
@[simp] theorem State.setCarryOverflow_ip (s : State) (c o : Bool) : (s.setCarryOverflow c o).ip = s.ip := rfl
@[simp] theorem State.setCarryOverflow_es (s : State) (c o : Bool) : (s.setCarryOverflow c o).es = s.es := rfl
@[simp] theorem State.setCarryOverflow_cs (s : State) (c o : Bool) : (s.setCarryOverflow c o).cs = s.cs := rfl
@[simp] theorem State.setCarryOverflow_ss (s : State) (c o : Bool) : (s.setCarryOverflow c o).ss = s.ss := rfl
@[simp] theorem State.setCarryOverflow_ds (s : State) (c o : Bool) : (s.setCarryOverflow c o).ds = s.ds := rfl
@[simp] theorem State.setCarryOverflow_flags (s : State) (c o : Bool) : (s.setCarryOverflow c o).flags = { s.flags with cf := c, of := o } := rfl
@[simp] theorem State.setCarryOverflow_mem (s : State) (c o : Bool) : (s.setCarryOverflow c o).mem = s.mem := rfl
@[simp] theorem State.setCarryOverflow_run (s : State) (c o : Bool) : (s.setCarryOverflow c o).run = s.run := rfl
@[simp] theorem State.setCarryOverflow_ticks (s : State) (c o : Bool) : (s.setCarryOverflow c o).ticks = s.ticks := rfl
@[simp] theorem State.setCarryOverflow_output (s : State) (c o : Bool) : (s.setCarryOverflow c o).output = s.output := rfl
@[simp] theorem State.setCarryOverflow_params (s : State) (c o : Bool) : (s.setCarryOverflow c o).params = s.params := rfl
@[simp] theorem State.setCarryOverflow_draws (s : State) (c o : Bool) : (s.setCarryOverflow c o).draws = s.draws := rfl

/-! ### setReg16 and setReg8: the fields that are no general or pointer/index register -/

@[simp] theorem State.setReg16_ip (s : State) (r : Reg16) (v : Word) : (s.setReg16 r v).ip = s.ip := by cases r <;> rfl
@[simp] theorem State.setReg16_es (s : State) (r : Reg16) (v : Word) : (s.setReg16 r v).es = s.es := by cases r <;> rfl
@[simp] theorem State.setReg16_cs (s : State) (r : Reg16) (v : Word) : (s.setReg16 r v).cs = s.cs := by cases r <;> rfl
@[simp] theorem State.setReg16_ss (s : State) (r : Reg16) (v : Word) : (s.setReg16 r v).ss = s.ss := by cases r <;> rfl
@[simp] theorem State.setReg16_ds (s : State) (r : Reg16) (v : Word) : (s.setReg16 r v).ds = s.ds := by cases r <;> rfl
@[simp] theorem State.setReg16_flags (s : State) (r : Reg16) (v : Word) : (s.setReg16 r v).flags = s.flags := by cases r <;> rfl
@[simp] theorem State.setReg16_mem (s : State) (r : Reg16) (v : Word) : (s.setReg16 r v).mem = s.mem := by cases r <;> rfl
@[simp] theorem State.setReg16_run (s : State) (r : Reg16) (v : Word) : (s.setReg16 r v).run = s.run := by cases r <;> rfl
@[simp] theorem State.setReg16_ticks (s : State) (r : Reg16) (v : Word) : (s.setReg16 r v).ticks = s.ticks := by cases r <;> rfl
@[simp] theorem State.setReg16_output (s : State) (r : Reg16) (v : Word) : (s.setReg16 r v).output = s.output := by cases r <;> rfl
@[simp] theorem State.setReg16_params (s : State) (r : Reg16) (v : Word) : (s.setReg16 r v).params = s.params := by cases r <;> rfl
@[simp] theorem State.setReg16_draws (s : State) (r : Reg16) (v : Word) : (s.setReg16 r v).draws = s.draws := by cases r <;> rfl
@[simp] theorem State.setReg8_ip (s : State) (r : Reg8) (v : Byte) : (s.setReg8 r v).ip = s.ip := by cases r <;> rfl
@[simp] theorem State.setReg8_es (s : State) (r : Reg8) (v : Byte) : (s.setReg8 r v).es = s.es := by cases r <;> rfl
@[simp] theorem State.setReg8_cs (s : State) (r : Reg8) (v : Byte) : (s.setReg8 r v).cs = s.cs := by cases r <;> rfl
@[simp] theorem State.setReg8_ss (s : State) (r : Reg8) (v : Byte) : (s.setReg8 r v).ss = s.ss := by cases r <;> rfl
@[simp] theorem State.setReg8_ds (s : State) (r : Reg8) (v : Byte) : (s.setReg8 r v).ds = s.ds := by cases r <;> rfl
@[simp] theorem State.setReg8_flags (s : State) (r : Reg8) (v : Byte) : (s.setReg8 r v).flags = s.flags := by cases r <;> rfl
@[simp] theorem State.setReg8_mem (s : State) (r : Reg8) (v : Byte) : (s.setReg8 r v).mem = s.mem := by cases r <;> rfl
@[simp] theorem State.setReg8_run (s : State) (r : Reg8) (v : Byte) : (s.setReg8 r v).run = s.run := by cases r <;> rfl
@[simp] theorem State.setReg8_ticks (s : State) (r : Reg8) (v : Byte) : (s.setReg8 r v).ticks = s.ticks := by cases r <;> rfl
@[simp] theorem State.setReg8_output (s : State) (r : Reg8) (v : Byte) : (s.setReg8 r v).output = s.output := by cases r <;> rfl
@[simp] theorem State.setReg8_params (s : State) (r : Reg8) (v : Byte) : (s.setReg8 r v).params = s.params := by cases r <;> rfl
@[simp] theorem State.setReg8_draws (s : State) (r : Reg8) (v : Byte) : (s.setReg8 r v).draws = s.draws := by cases r <;> rfl

/-! ### setSreg: the fields that are no segment register -/

@[simp] theorem State.setSreg_ax (s : State) (r : SReg) (v : Word) : (s.setSreg r v).ax = s.ax := by cases r <;> rfl
@[simp] theorem State.setSreg_cx (s : State) (r : SReg) (v : Word) : (s.setSreg r v).cx = s.cx := by cases r <;> rfl
@[simp] theorem State.setSreg_dx (s : State) (r : SReg) (v : Word) : (s.setSreg r v).dx = s.dx := by cases r <;> rfl
@[simp] theorem State.setSreg_bx (s : State) (r : SReg) (v : Word) : (s.setSreg r v).bx = s.bx := by cases r <;> rfl
@[simp] theorem State.setSreg_sp (s : State) (r : SReg) (v : Word) : (s.setSreg r v).sp = s.sp := by cases r <;> rfl
@[simp] theorem State.setSreg_bp (s : State) (r : SReg) (v : Word) : (s.setSreg r v).bp = s.bp := by cases r <;> rfl
@[simp] theorem State.setSreg_si (s : State) (r : SReg) (v : Word) : (s.setSreg r v).si = s.si := by cases r <;> rfl
@[simp] theorem State.setSreg_di (s : State) (r : SReg) (v : Word) : (s.setSreg r v).di = s.di := by cases r <;> rfl
@[simp] theorem State.setSreg_ip (s : State) (r : SReg) (v : Word) : (s.setSreg r v).ip = s.ip := by cases r <;> rfl
@[simp] theorem State.setSreg_flags (s : State) (r : SReg) (v : Word) : (s.setSreg r v).flags = s.flags := by cases r <;> rfl
@[simp] theorem State.setSreg_mem (s : State) (r : SReg) (v : Word) : (s.setSreg r v).mem = s.mem := by cases r <;> rfl
@[simp] theorem State.setSreg_run (s : State) (r : SReg) (v : Word) : (s.setSreg r v).run = s.run := by cases r <;> rfl
@[simp] theorem State.setSreg_ticks (s : State) (r : SReg) (v : Word) : (s.setSreg r v).ticks = s.ticks := by cases r <;> rfl
@[simp] theorem State.setSreg_output (s : State) (r : SReg) (v : Word) : (s.setSreg r v).output = s.output := by cases r <;> rfl
@[simp] theorem State.setSreg_params (s : State) (r : SReg) (v : Word) : (s.setSreg r v).params = s.params := by cases r <;> rfl
@[simp] theorem State.setSreg_draws (s : State) (r : SReg) (v : Word) : (s.setSreg r v).draws = s.draws := by cases r <;> rfl

/-! ### Accessors through updates -/

/-- R23, R26: a word register write is seen by a read of the same register and by no other. -/
theorem State.reg16_setReg16 (s : State) (r q : Reg16) (v : Word) :
    (s.setReg16 r v).reg16 q = if q = r then v else s.reg16 q := by
  cases r <;> cases q <;> rfl

@[simp] theorem State.reg16_setReg16_self (s : State) (r : Reg16) (v : Word) : (s.setReg16 r v).reg16 r = v := by
  cases r <;> rfl

theorem State.sreg_setSreg (s : State) (r q : SReg) (v : Word) :
    (s.setSreg r v).sreg q = if q = r then v else s.sreg q := by
  cases r <;> cases q <;> rfl

@[simp] theorem State.reg16_advanceIp (s : State) (n : Nat) (r : Reg16) : (s.advanceIp n).reg16 r = s.reg16 r := by cases r <;> rfl
@[simp] theorem State.reg8_advanceIp (s : State) (n : Nat) (r : Reg8) : (s.advanceIp n).reg8 r = s.reg8 r := by cases r <;> rfl
@[simp] theorem State.sreg_advanceIp (s : State) (n : Nat) (r : SReg) : (s.advanceIp n).sreg r = s.sreg r := by cases r <;> rfl
@[simp] theorem State.flag_advanceIp (s : State) (n : Nat) (f : Flag) : (s.advanceIp n).flag f = s.flag f := by cases f <;> rfl
@[simp] theorem State.reg16_setMem (s : State) (m : Memory) (r : Reg16) : (s.setMem m).reg16 r = s.reg16 r := by cases r <;> rfl
@[simp] theorem State.reg8_setMem (s : State) (m : Memory) (r : Reg8) : (s.setMem m).reg8 r = s.reg8 r := by cases r <;> rfl
@[simp] theorem State.sreg_setMem (s : State) (m : Memory) (r : SReg) : (s.setMem m).sreg r = s.sreg r := by cases r <;> rfl
@[simp] theorem State.flag_setMem (s : State) (m : Memory) (f : Flag) : (s.setMem m).flag f = s.flag f := by cases f <;> rfl
@[simp] theorem State.reg16_terminate (s : State) (st : Byte) (r : Reg16) : (s.terminate st).reg16 r = s.reg16 r := by cases r <;> rfl
@[simp] theorem State.reg8_terminate (s : State) (st : Byte) (r : Reg8) : (s.terminate st).reg8 r = s.reg8 r := by cases r <;> rfl
@[simp] theorem State.sreg_terminate (s : State) (st : Byte) (r : SReg) : (s.terminate st).sreg r = s.sreg r := by cases r <;> rfl
@[simp] theorem State.flag_terminate (s : State) (st : Byte) (f : Flag) : (s.terminate st).flag f = s.flag f := by cases f <;> rfl
@[simp] theorem State.reg16_exhaust (s : State) (r : Reg16) : (s.exhaust).reg16 r = s.reg16 r := by cases r <;> rfl
@[simp] theorem State.reg8_exhaust (s : State) (r : Reg8) : (s.exhaust).reg8 r = s.reg8 r := by cases r <;> rfl
@[simp] theorem State.sreg_exhaust (s : State) (r : SReg) : (s.exhaust).sreg r = s.sreg r := by cases r <;> rfl
@[simp] theorem State.flag_exhaust (s : State) (f : Flag) : (s.exhaust).flag f = s.flag f := by cases f <;> rfl
@[simp] theorem State.reg16_endCycle (s : State) (r : Reg16) : (s.endCycle).reg16 r = s.reg16 r := by cases r <;> rfl
@[simp] theorem State.reg8_endCycle (s : State) (r : Reg8) : (s.endCycle).reg8 r = s.reg8 r := by cases r <;> rfl
@[simp] theorem State.sreg_endCycle (s : State) (r : SReg) : (s.endCycle).sreg r = s.sreg r := by cases r <;> rfl
@[simp] theorem State.flag_endCycle (s : State) (f : Flag) : (s.endCycle).flag f = s.flag f := by cases f <;> rfl
@[simp] theorem State.reg16_drew (s : State) (n : Nat) (r : Reg16) : (s.drew n).reg16 r = s.reg16 r := by cases r <;> rfl
@[simp] theorem State.reg8_drew (s : State) (n : Nat) (r : Reg8) : (s.drew n).reg8 r = s.reg8 r := by cases r <;> rfl
@[simp] theorem State.sreg_drew (s : State) (n : Nat) (r : SReg) : (s.drew n).sreg r = s.sreg r := by cases r <;> rfl
@[simp] theorem State.flag_drew (s : State) (n : Nat) (f : Flag) : (s.drew n).flag f = s.flag f := by cases f <;> rfl
@[simp] theorem State.reg16_setStatus (s : State) (x : StatusFlags) (r : Reg16) : (s.setStatus x).reg16 r = s.reg16 r := by cases r <;> rfl
@[simp] theorem State.reg8_setStatus (s : State) (x : StatusFlags) (r : Reg8) : (s.setStatus x).reg8 r = s.reg8 r := by cases r <;> rfl
@[simp] theorem State.sreg_setStatus (s : State) (x : StatusFlags) (r : SReg) : (s.setStatus x).sreg r = s.sreg r := by cases r <;> rfl
@[simp] theorem State.reg16_setCarryOverflow (s : State) (c o : Bool) (r : Reg16) : (s.setCarryOverflow c o).reg16 r = s.reg16 r := by cases r <;> rfl
@[simp] theorem State.reg8_setCarryOverflow (s : State) (c o : Bool) (r : Reg8) : (s.setCarryOverflow c o).reg8 r = s.reg8 r := by cases r <;> rfl
@[simp] theorem State.sreg_setCarryOverflow (s : State) (c o : Bool) (r : SReg) : (s.setCarryOverflow c o).sreg r = s.sreg r := by cases r <;> rfl
@[simp] theorem State.sreg_setReg16 (s : State) (r : Reg16) (v : Word) (q : SReg) : (s.setReg16 r v).sreg q = s.sreg q := by
  cases r <;> cases q <;> rfl

@[simp] theorem State.flag_setReg16 (s : State) (r : Reg16) (v : Word) (f : Flag) : (s.setReg16 r v).flag f = s.flag f := by
  cases r <;> cases f <;> rfl

@[simp] theorem State.sreg_setReg8 (s : State) (r : Reg8) (v : Byte) (q : SReg) : (s.setReg8 r v).sreg q = s.sreg q := by
  cases r <;> cases q <;> rfl

@[simp] theorem State.flag_setReg8 (s : State) (r : Reg8) (v : Byte) (f : Flag) : (s.setReg8 r v).flag f = s.flag f := by
  cases r <;> cases f <;> rfl

@[simp] theorem State.reg16_setSreg (s : State) (r : SReg) (v : Word) (q : Reg16) : (s.setSreg r v).reg16 q = s.reg16 q := by
  cases r <;> cases q <;> rfl

@[simp] theorem State.reg8_setSreg (s : State) (r : SReg) (v : Word) (q : Reg8) : (s.setSreg r v).reg8 q = s.reg8 q := by
  cases r <;> cases q <;> rfl

/-! ### Bytes of words -/

@[simp] theorem lowByte_wordOf (lo hi : Byte) : lowByte (wordOf lo hi) = lo := by
  apply BitVec.eq_of_getLsbD_eq
  intro i hi'
  simp only [lowByte, wordOf, BitVec.getLsbD_extractLsb', BitVec.getLsbD_append]
  simp [hi']

@[simp] theorem highByte_wordOf (lo hi : Byte) : highByte (wordOf lo hi) = hi := by
  apply BitVec.eq_of_getLsbD_eq
  intro i hi'
  simp only [highByte, wordOf, BitVec.getLsbD_extractLsb', BitVec.getLsbD_append]
  simp [hi']

@[simp] theorem wordOf_low_high (w : Word) : wordOf (lowByte w) (highByte w) = w := by
  apply BitVec.eq_of_getLsbD_eq
  intro i hi'
  simp only [lowByte, highByte, wordOf, BitVec.getLsbD_extractLsb', BitVec.getLsbD_append]
  by_cases h : i < 8
  · simp [h]
  · simp [h, show i - 8 < 8 by omega, show 8 + (i - 8) = i by omega]

/-- R53 as arithmetic: the byte at the lower address is bits 7:0. -/
theorem wordOf_toNat (lo hi : Byte) : (wordOf lo hi).toNat = lo.toNat + 256 * hi.toNat := by
  have hl := lo.isLt
  simp only [wordOf, BitVec.toNat_append]
  rw [← Nat.shiftLeft_add_eq_or_of_lt hl, Nat.shiftLeft_eq]
  omega

theorem lowByte_toNat (w : Word) : (lowByte w).toNat = w.toNat % 256 := by
  simp [lowByte, BitVec.extractLsb'_toNat]

theorem highByte_toNat (w : Word) : (highByte w).toNat = w.toNat / 256 := by
  have := w.isLt
  simp only [highByte, BitVec.extractLsb'_toNat, Nat.shiftRight_eq_div_pow]
  omega

/-- R22: a byte half reads what was last written to it, and the other half keeps its value. -/
theorem State.reg8_setReg8 (s : State) (r q : Reg8) (v : Byte) :
    (s.setReg8 r v).reg8 q = if q = r then v else s.reg8 q := by
  cases r <;> cases q <;>
    simp [State.setReg8, State.reg8, Reg8.parent, Reg8.isHigh, withLow, withHigh, State.reg16_setReg16]

@[simp] theorem State.reg8_setReg8_self (s : State) (r : Reg8) (v : Byte) : (s.setReg8 r v).reg8 r = v := by
  simp [State.reg8_setReg8]

/-- A byte write leaves SP, BP, SI and DI alone. -/
theorem State.setReg8_pointers (s : State) (r : Reg8) (v : Byte) :
    (s.setReg8 r v).sp = s.sp ∧ (s.setReg8 r v).bp = s.bp ∧ (s.setReg8 r v).si = s.si ∧ (s.setReg8 r v).di = s.di := by
  cases r <;> exact ⟨rfl, rfl, rfl, rfl⟩

/-! ### FLAGS as a word -/

@[simp] theorem Flags.ofWord_toWord (f : Flags) : Flags.ofWord f.toWord = f := by
  simp only [Flags.ofWord, Flags.toWord, BitVec.getLsbD_ofBoolListLE]
  rfl

@[simp] theorem Flags.toWord_ofWord (w : Word) : (Flags.ofWord w).toWord = w := by
  apply BitVec.eq_of_getLsbD_eq
  intro i hi
  have hi : i < 16 := hi
  have : i = 0 ∨ i = 1 ∨ i = 2 ∨ i = 3 ∨ i = 4 ∨ i = 5 ∨ i = 6 ∨ i = 7 ∨ i = 8 ∨ i = 9 ∨ i = 10 ∨ i = 11 ∨ i = 12 ∨
      i = 13 ∨ i = 14 ∨ i = 15 := by
    omega
  rcases this with h | h | h | h | h | h | h | h | h | h | h | h | h | h | h | h <;> subst h <;>
    (simp only [Flags.ofWord, Flags.toWord, BitVec.getLsbD_ofBoolListLE]; rfl)

/-- R40: the reset word. -/
theorem Flags.atReset_toWord : Flags.atReset.toWord = 0x0200#16 := by decide

/-! ### Writing flags -/

@[simp] theorem State.flag_cf_setStatus (s : State) (x : StatusFlags) : (s.setStatus x).flag .cf = x.cf := rfl
@[simp] theorem State.flag_pf_setStatus (s : State) (x : StatusFlags) : (s.setStatus x).flag .pf = x.pf := rfl
@[simp] theorem State.flag_af_setStatus (s : State) (x : StatusFlags) : (s.setStatus x).flag .af = x.af := rfl
@[simp] theorem State.flag_zf_setStatus (s : State) (x : StatusFlags) : (s.setStatus x).flag .zf = x.zf := rfl
@[simp] theorem State.flag_sf_setStatus (s : State) (x : StatusFlags) : (s.setStatus x).flag .sf = x.sf := rfl
@[simp] theorem State.flag_of_setStatus (s : State) (x : StatusFlags) : (s.setStatus x).flag .of = x.of := rfl
@[simp] theorem State.flag_tf_setStatus (s : State) (x : StatusFlags) : (s.setStatus x).flag .tf = s.flag .tf := rfl
@[simp] theorem State.flag_intf_setStatus (s : State) (x : StatusFlags) : (s.setStatus x).flag .intf = s.flag .intf := rfl
@[simp] theorem State.flag_df_setStatus (s : State) (x : StatusFlags) : (s.setStatus x).flag .df = s.flag .df := rfl
@[simp] theorem State.flag_cf_setCarryOverflow (s : State) (c o : Bool) : (s.setCarryOverflow c o).flag .cf = c := rfl
@[simp] theorem State.flag_of_setCarryOverflow (s : State) (c o : Bool) : (s.setCarryOverflow c o).flag .of = o := rfl

/-- R31: writing the six status flags leaves every other bit of the word. -/
theorem State.setStatus_bits_kept (s : State) (x : StatusFlags) {k : Nat}
    (hk : k ≠ 0 ∧ k ≠ 2 ∧ k ≠ 4 ∧ k ≠ 6 ∧ k ≠ 7 ∧ k ≠ 11) :
    (s.setStatus x).flags.toWord.getLsbD k = s.flags.toWord.getLsbD k := by
  by_cases h : k < 16
  · have : k = 1 ∨ k = 3 ∨ k = 5 ∨ k = 8 ∨ k = 9 ∨ k = 10 ∨ k = 12 ∨ k = 13 ∨ k = 14 ∨ k = 15 := by omega
    rcases this with h | h | h | h | h | h | h | h | h | h <;> subst h <;>
      (simp only [Flags.toWord, BitVec.getLsbD_ofBoolListLE]; rfl)
  · rw [BitVec.getLsbD_of_ge _ _ (by simpa using h), BitVec.getLsbD_of_ge _ _ (by simpa using h)]

/-- R31, the row of RCL: writing CF and OF leaves every other bit of the word. -/
theorem State.setCarryOverflow_bits_kept (s : State) (c o : Bool) {k : Nat} (hk : k ≠ 0 ∧ k ≠ 11) :
    (s.setCarryOverflow c o).flags.toWord.getLsbD k = s.flags.toWord.getLsbD k := by
  by_cases h : k < 16
  · have : k = 1 ∨ k = 2 ∨ k = 3 ∨ k = 4 ∨ k = 5 ∨ k = 6 ∨ k = 7 ∨ k = 8 ∨ k = 9 ∨ k = 10 ∨ k = 12 ∨ k = 13 ∨ k = 14 ∨
        k = 15 := by omega
    rcases this with h | h | h | h | h | h | h | h | h | h | h | h | h | h <;> subst h <;>
      (simp only [Flags.toWord, BitVec.getLsbD_ofBoolListLE]; rfl)
  · rw [BitVec.getLsbD_of_ge _ _ (by simpa using h), BitVec.getLsbD_of_ge _ _ (by simpa using h)]

end Sys2Proof.Machine
end

