-- ==== Sys2Proof/Laws/Ops.lean ====
section
/-! SUPPORT. What each shared operation can do, once each. -/

namespace Sys2Proof.Machine

/-! ### The instruction cycle -/

/-- If an instruction's cycle answers a next state, its body returned and the end of the cycle followed, or its body
terminated and nothing followed (R104, R105). -/
theorem cycleOrExit_next {len : Nat} {body : State → Except Fatal BodyEnd} {s u : State}
    (h : cycleOrExit len body s = .next u) :
    (∃ t, body (s.advanceIp (len - 1)) = .ok (.returned t) ∧ u = t.endCycle) ∨
    (∃ st t, body (s.advanceIp (len - 1)) = .ok (.terminated st t) ∧ u = t.terminate st) := by
  unfold cycleOrExit raiseFatal at h
  split at h
  · cases h
  · rename_i t ht; injection h with h; exact .inl ⟨t, ht, h.symm⟩
  · rename_i st t ht; injection h with h; exact .inr ⟨st, t, ht, h.symm⟩

theorem cycle_next {len : Nat} {body : State → Except Fatal State} {s u : State} :
    cycle len body s = .next u ↔ ∃ t, body (s.advanceIp (len - 1)) = .ok t ∧ u = t.endCycle := by
  unfold cycle cycleOrExit raiseFatal
  cases h : body (s.advanceIp (len - 1)) <;> simp [h, Except.map, eq_comm]

/-- A body that returns completes its cycle. -/
theorem cycle_of_ok {len : Nat} {body : State → Except Fatal State} {s t : State}
    (h : body (s.advanceIp (len - 1)) = .ok t) : cycle len body s = .next t.endCycle := cycle_next.2 ⟨t, h, rfl⟩

/-- A body that raises ends the run with its code and the CS and IP of the instruction (R265). -/
theorem cycle_of_error {len : Nat} {body : State → Except Fatal State} {s : State} {c : Fatal}
    (h : body (s.advanceIp (len - 1)) = .error c) : cycle len body s = .fault (.fatal c s.cs s.ip) := by
  unfold cycle cycleOrExit raiseFatal
  simp [h, Except.map]

@[simp] theorem cyclePure_eq (len : Nat) (f : State → State) (s : State) :
    cyclePure len f s = .next (f (s.advanceIp (len - 1))).endCycle := rfl

/-! ### The stack -/

/-- What `push16` leaves (R180). -/
theorem push16_ok {v : Word} {s t : State} :
    push16 v s = .ok t ↔ ∃ m, segWrite16 s.mem s.ss (s.sp - 2) v = .ok m ∧ t = { s with sp := s.sp - 2, mem := m } := by
  unfold push16
  cases segWrite16 s.mem s.ss (s.sp - 2) v <;> simp [Except.map, eq_comm]

/-- What `pop16` answers and leaves (R181). -/
theorem pop16_ok {s t : State} {v : Word} :
    pop16 s = .ok (v, t) ↔ segRead16 s.mem s.ss s.sp = .ok v ∧ t = { s with sp := s.sp + 2 } := by
  unfold pop16
  cases segRead16 s.mem s.ss s.sp <;> simp [Except.map, eq_comm]

/-! ### Rotation -/

/-- One more iteration of RCL's loop at the end (R131). -/
theorem rcl16_succ (n : Nat) (x : Word) (c : Bool) :
    rcl16 (n + 1) x c =
      (BitVec.ofNat 16 ((rcl16 n x c).1.toNat * 2 + carryIn (rcl16 n x c).2), (rcl16 n x c).1.getLsbD 15) := by
  induction n generalizing x c with
  | zero => rfl
  | succ n ih => rw [rcl16, ih]; rfl

/-! ### Fetching -/

/-- What consuming one byte answers and leaves (R89, R56). -/
theorem consumeByte_ok {s t : State} {b : Byte} :
    consumeByte s = .ok (b, t) ↔
      s.ip ≠ 0xFFFF ∧ lin s.cs (s.ip + 1) < Config.memSize ∧ b = s.mem.read (lin s.cs (s.ip + 1)) ∧ t = s.advanceIp 1 := by
  unfold consumeByte memRead8
  by_cases h : s.ip = 0xFFFF
  · simp [h]
  · rw [if_neg h]
    by_cases h2 : lin s.cs (s.ip + 1) ≥ Config.memSize
    · simp only [h2, if_true, Except.map]
      constructor
      · intro h3; cases h3
      · rintro ⟨-, h3, -⟩; exact absurd h3 (by omega)
    · simp only [h2, if_false, Except.map, Except.ok.injEq, Prod.mk.injEq, ne_eq, h, not_false_eq_true, true_and]
      constructor
      · rintro ⟨rfl, rfl⟩; exact ⟨by omega, rfl, rfl⟩
      · rintro ⟨-, rfl, rfl⟩; exact ⟨rfl, rfl⟩

/-! ### INT -/

/-- If the body of INT returns or terminates, no field but the output stream has changed (R222). -/
theorem intBody_ok {n : Byte} {s : State} {e : BodyEnd} (h : intBody n s = .ok e) :
    (∃ out, e = .returned { s with output := s.output ++ out } ∧ (n = 0x10 ∨ n = 0x21)) ∨
    (e = .terminated (s.reg8 .al) s ∧ n = 0x21 ∧ s.reg8 .ah = 0x4C) := by
  unfold intBody bios at h
  by_cases h1 : n = 0x10
  · rw [if_pos h1] at h
    by_cases h2 : s.reg8 .ah = 0x0E
    · rw [if_pos h2] at h; injection h with h; exact .inl ⟨_, h.symm, .inl h1⟩
    · rw [if_neg h2] at h; cases h
  · rw [if_neg h1] at h
    by_cases h3 : n = 0x21
    · rw [if_pos h3] at h
      by_cases h4 : s.reg8 .ah = 0x09
      · rw [if_pos h4] at h
        cases hp : printedString s with
        | error c => rw [hp] at h; cases h
        | ok out => rw [hp] at h; injection h with h; exact .inl ⟨out, h.symm, .inr h3⟩
      · rw [if_neg h4] at h
        by_cases h5 : s.reg8 .ah = 0x4C
        · rw [if_pos h5] at h; injection h with h; exact .inr ⟨h.symm, h3, h5⟩
        · rw [if_neg h5] at h; cases h
    · rw [if_neg h3] at h; cases h

end Sys2Proof.Machine
end

