-- ==== Sys2Proof/Laws/PerInstr.lean ====
section
/-! SUPPORT. Statements made for each instruction: the family `EncodedLength`. -/

namespace Sys2Proof.Laws

/-- The encoding of an instruction has an opcode byte, and it is as long as that byte alone says (30_encoding.md R95). -/
def EncodedLength.Statement (i : Instr) : Prop :=
  ∃ opc rest, encode i = opc :: rest ∧ (lookup opc).isSome = true ∧ rest.length = operandBytes opc

theorem EncodedLength.addRm8R8 (rm reg : Reg8) : EncodedLength.Statement (.addRm8R8 rm reg) := by
  exact ⟨_, _, rfl, rfl, rfl⟩

theorem EncodedLength.addR8Rm8 (reg rm : Reg8) : EncodedLength.Statement (.addR8Rm8 reg rm) := by
  exact ⟨_, _, rfl, rfl, rfl⟩

theorem EncodedLength.addAlImm8 (imm : Byte) : EncodedLength.Statement (.addAlImm8 imm) := by
  exact ⟨_, _, rfl, rfl, rfl⟩

theorem EncodedLength.orRm8R8 (rm reg : Reg8) : EncodedLength.Statement (.orRm8R8 rm reg) := by
  exact ⟨_, _, rfl, rfl, rfl⟩

theorem EncodedLength.orR8Rm8 (reg rm : Reg8) : EncodedLength.Statement (.orR8Rm8 reg rm) := by
  exact ⟨_, _, rfl, rfl, rfl⟩

theorem EncodedLength.orAlImm8 (imm : Byte) : EncodedLength.Statement (.orAlImm8 imm) := by
  exact ⟨_, _, rfl, rfl, rfl⟩

theorem EncodedLength.adcRm8R8 (rm reg : Reg8) : EncodedLength.Statement (.adcRm8R8 rm reg) := by
  exact ⟨_, _, rfl, rfl, rfl⟩

theorem EncodedLength.adcR8Rm8 (reg rm : Reg8) : EncodedLength.Statement (.adcR8Rm8 reg rm) := by
  exact ⟨_, _, rfl, rfl, rfl⟩

theorem EncodedLength.adcAlImm8 (imm : Byte) : EncodedLength.Statement (.adcAlImm8 imm) := by
  exact ⟨_, _, rfl, rfl, rfl⟩

theorem EncodedLength.andRm8R8 (rm reg : Reg8) : EncodedLength.Statement (.andRm8R8 rm reg) := by
  exact ⟨_, _, rfl, rfl, rfl⟩

theorem EncodedLength.andR8Rm8 (reg rm : Reg8) : EncodedLength.Statement (.andR8Rm8 reg rm) := by
  exact ⟨_, _, rfl, rfl, rfl⟩

theorem EncodedLength.andAlImm8 (imm : Byte) : EncodedLength.Statement (.andAlImm8 imm) := by
  exact ⟨_, _, rfl, rfl, rfl⟩

theorem EncodedLength.subRm8R8 (rm reg : Reg8) : EncodedLength.Statement (.subRm8R8 rm reg) := by
  exact ⟨_, _, rfl, rfl, rfl⟩

theorem EncodedLength.subR8Rm8 (reg rm : Reg8) : EncodedLength.Statement (.subR8Rm8 reg rm) := by
  exact ⟨_, _, rfl, rfl, rfl⟩

theorem EncodedLength.subAlImm8 (imm : Byte) : EncodedLength.Statement (.subAlImm8 imm) := by
  exact ⟨_, _, rfl, rfl, rfl⟩

theorem EncodedLength.xorRm8R8 (rm reg : Reg8) : EncodedLength.Statement (.xorRm8R8 rm reg) := by
  exact ⟨_, _, rfl, rfl, rfl⟩

theorem EncodedLength.xorR8Rm8 (reg rm : Reg8) : EncodedLength.Statement (.xorR8Rm8 reg rm) := by
  exact ⟨_, _, rfl, rfl, rfl⟩

theorem EncodedLength.xorAlImm8 (imm : Byte) : EncodedLength.Statement (.xorAlImm8 imm) := by
  exact ⟨_, _, rfl, rfl, rfl⟩

theorem EncodedLength.cmpRm8R8 (rm reg : Reg8) : EncodedLength.Statement (.cmpRm8R8 rm reg) := by
  exact ⟨_, _, rfl, rfl, rfl⟩

theorem EncodedLength.cmpR8Rm8 (reg rm : Reg8) : EncodedLength.Statement (.cmpR8Rm8 reg rm) := by
  exact ⟨_, _, rfl, rfl, rfl⟩

theorem EncodedLength.cmpAlImm8 (imm : Byte) : EncodedLength.Statement (.cmpAlImm8 imm) := by
  exact ⟨_, _, rfl, rfl, rfl⟩

theorem EncodedLength.daa : EncodedLength.Statement (.daa) := by
  exact ⟨_, _, rfl, rfl, rfl⟩

theorem EncodedLength.decR16 (r : Reg16) : EncodedLength.Statement (.decR16 r) := by
  cases r <;> exact ⟨_, _, rfl, rfl, rfl⟩

theorem EncodedLength.pushR16 (r : Reg16) : EncodedLength.Statement (.pushR16 r) := by
  cases r <;> exact ⟨_, _, rfl, rfl, rfl⟩

theorem EncodedLength.popR16 (r : Reg16) : EncodedLength.Statement (.popR16 r) := by
  cases r <;> exact ⟨_, _, rfl, rfl, rfl⟩

theorem EncodedLength.pusha : EncodedLength.Statement (.pusha) := by
  exact ⟨_, _, rfl, rfl, rfl⟩

theorem EncodedLength.jbRel8 (d : Byte) : EncodedLength.Statement (.jbRel8 d) := by
  exact ⟨_, _, rfl, rfl, rfl⟩

theorem EncodedLength.jzRel8 (d : Byte) : EncodedLength.Statement (.jzRel8 d) := by
  exact ⟨_, _, rfl, rfl, rfl⟩

theorem EncodedLength.jnzRel8 (d : Byte) : EncodedLength.Statement (.jnzRel8 d) := by
  exact ⟨_, _, rfl, rfl, rfl⟩

theorem EncodedLength.jbeRel8 (d : Byte) : EncodedLength.Statement (.jbeRel8 d) := by
  exact ⟨_, _, rfl, rfl, rfl⟩

theorem EncodedLength.movRm8R8 (rm reg : Reg8) : EncodedLength.Statement (.movRm8R8 rm reg) := by
  exact ⟨_, _, rfl, rfl, rfl⟩

theorem EncodedLength.movRm16R16 (rm reg : Reg16) : EncodedLength.Statement (.movRm16R16 rm reg) := by
  exact ⟨_, _, rfl, rfl, rfl⟩

theorem EncodedLength.movR8Rm8 (reg rm : Reg8) : EncodedLength.Statement (.movR8Rm8 reg rm) := by
  exact ⟨_, _, rfl, rfl, rfl⟩

theorem EncodedLength.movR16Rm16 (reg rm : Reg16) : EncodedLength.Statement (.movR16Rm16 reg rm) := by
  exact ⟨_, _, rfl, rfl, rfl⟩

theorem EncodedLength.movRm16Cs (rm : Reg16) : EncodedLength.Statement (.movRm16Cs rm) := by
  exact ⟨_, _, rfl, rfl, rfl⟩

theorem EncodedLength.movRm16Ds (rm : Reg16) : EncodedLength.Statement (.movRm16Ds rm) := by
  exact ⟨_, _, rfl, rfl, rfl⟩

theorem EncodedLength.movCsRm16 (rm : Reg16) : EncodedLength.Statement (.movCsRm16 rm) := by
  exact ⟨_, _, rfl, rfl, rfl⟩

theorem EncodedLength.movDsRm16 (rm : Reg16) : EncodedLength.Statement (.movDsRm16 rm) := by
  exact ⟨_, _, rfl, rfl, rfl⟩

theorem EncodedLength.pushf : EncodedLength.Statement (.pushf) := by
  exact ⟨_, _, rfl, rfl, rfl⟩

theorem EncodedLength.popf : EncodedLength.Statement (.popf) := by
  exact ⟨_, _, rfl, rfl, rfl⟩

theorem EncodedLength.movsb : EncodedLength.Statement (.movsb) := by
  exact ⟨_, _, rfl, rfl, rfl⟩

theorem EncodedLength.movsw : EncodedLength.Statement (.movsw) := by
  exact ⟨_, _, rfl, rfl, rfl⟩

theorem EncodedLength.stosb : EncodedLength.Statement (.stosb) := by
  exact ⟨_, _, rfl, rfl, rfl⟩

theorem EncodedLength.stosw : EncodedLength.Statement (.stosw) := by
  exact ⟨_, _, rfl, rfl, rfl⟩

theorem EncodedLength.lodsb : EncodedLength.Statement (.lodsb) := by
  exact ⟨_, _, rfl, rfl, rfl⟩

theorem EncodedLength.lodsw : EncodedLength.Statement (.lodsw) := by
  exact ⟨_, _, rfl, rfl, rfl⟩

theorem EncodedLength.movR8Imm8 (r : Reg8) (imm : Byte) : EncodedLength.Statement (.movR8Imm8 r imm) := by
  cases r <;> exact ⟨_, _, rfl, rfl, rfl⟩

theorem EncodedLength.movR16Imm16 (r : Reg16) (imm : Word) : EncodedLength.Statement (.movR16Imm16 r imm) := by
  cases r <;> exact ⟨_, _, rfl, rfl, rfl⟩

theorem EncodedLength.ret : EncodedLength.Statement (.ret) := by
  exact ⟨_, _, rfl, rfl, rfl⟩

theorem EncodedLength.intImm8 (n : Byte) : EncodedLength.Statement (.intImm8 n) := by
  exact ⟨_, _, rfl, rfl, rfl⟩

theorem EncodedLength.rclRm16Cl (rm : Reg16) : EncodedLength.Statement (.rclRm16Cl rm) := by
  exact ⟨_, _, rfl, rfl, rfl⟩

theorem EncodedLength.loopRel8 (d : Byte) : EncodedLength.Statement (.loopRel8 d) := by
  exact ⟨_, _, rfl, rfl, rfl⟩

theorem EncodedLength.callRel16 (disp : Word) : EncodedLength.Statement (.callRel16 disp) := by
  exact ⟨_, _, rfl, rfl, rfl⟩

theorem EncodedLength.jmpRel8 (d : Byte) : EncodedLength.Statement (.jmpRel8 d) := by
  exact ⟨_, _, rfl, rfl, rfl⟩

theorem EncodedLength.incRm8 (rm : Reg8) : EncodedLength.Statement (.incRm8 rm) := by
  exact ⟨_, _, rfl, rfl, rfl⟩

end Sys2Proof.Laws
end

