-- ==== Sys2Proof/Tests/Slice0.lean ====
section
/-! SUPPORT. Tests by `decide`: ill-formed ModR/M bytes refused, one word of every constructor decoded, one step per
instruction with the results the spec's vectors give (95_test_vectors.md, and the examples of each rule), and for every
statement with hypotheses a concrete state that meets them, one for each clause at a boundary. -/

namespace Sys2Proof.Tests

open Sys2Proof Sys2Proof.Machine Sys2Proof.Claims

/-! ### Helpers -/

/-- The vector launch (95_test_vectors.md section 0) with code bytes at `lin(CS, IP)`. -/
def code (bs : List Byte) (s : State) : State := s.setMem (s.mem.writeBytes (lin s.cs s.ip) bs)

/-- The vector launch. -/
abbrev base : State := State.reset

/-- FLAGS of the vector launch with the six status flags given in the order CF PF AF ZF SF OF. -/
def withStatus (cf pf af zf sf of : Bool) : State :=
  base.setStatus { cf := cf, pf := pf, af := af, zf := zf, sf := sf, of := of }

def nextOf : Host.Outcome State Fault Refusal → Option State
  | .next t => some t
  | _ => none

def faultOf : Host.Outcome State Fault Refusal → Option Fault
  | .fault f => some f
  | _ => none

def refusalOf : Host.Outcome State Fault Refusal → Option Refusal
  | .refused r => some r
  | _ => none

/-- What `view` shows of the state after one step. -/
def after {α : Type} (view : State → α) (s : State) : Option α := (nextOf (step s)).map view

/-- The six status flags in the order CF PF AF ZF SF OF. -/
def status (s : State) : List Bool := [s.flag .cf, s.flag .pf, s.flag .af, s.flag .zf, s.flag .sf, s.flag .of]

/-- The fault of one step from `s`. -/
def faults (s : State) : Option Fault := faultOf (step s)

/-- The end of a run that `s` shows. -/
def ends (s : State) : RunState × Word × Nat := (s.run, s.ip, s.ticks)

/-! ### Ill-formed terms are refused -/

/-- R84: mod = 00, 01 and 10. -/
theorem test_mode_refused :
    ¬ ModeWellFormed 0x00 ∧ ¬ ModeWellFormed 0x7F ∧ ¬ ModeWellFormed 0xBF ∧ ModeWellFormed 0xC0 ∧
    decode [0x8A, 0x07] = .error (.mode 0x07) ∧ decode [0x00, 0xBF] = .error (.mode 0xBF) := by decide

/-- R93: an extension other than the group's. -/
theorem test_extension_refused :
    ¬ ModrmWellFormed (.extension 2) 0xC0 ∧ ¬ ModrmWellFormed (.extension 2) 0xD8 ∧ ¬ ModrmWellFormed (.extension 0) 0xC8 ∧
    decode [0xD3, 0xC0] = .error (.field 0xC0) ∧ decode [0xFE, 0xC8] = .error (.field 0xC8) := by decide

/-- R85: ES, SS and the numbers above 3 name no segment register. -/
theorem test_segment_refused :
    ¬ ModrmWellFormed .segment 0xC0 ∧ ¬ ModrmWellFormed .segment 0xD0 ∧ ¬ ModrmWellFormed .segment 0xE0 ∧
    decode [0x8E, 0xC0] = .error (.field 0xC0) ∧ decode [0x8E, 0xD0] = .error (.field 0xD0) ∧
    decode [0x8C, 0xE0] = .error (.field 0xE0) := by decide

/-- R92: the near JMP, NOP, IRET and HLT of the 8086 are unassigned. -/
theorem test_unassigned_refused :
    decode [0xE9, 0, 0] = .error (.unassigned 0xE9) ∧ decode [0x90] = .error (.unassigned 0x90) ∧
    decode [0xCF] = .error (.unassigned 0xCF) ∧ decode [0xF4] = .error (.unassigned 0xF4) := by decide

/-! ### One word of every constructor (R91), bytes in memory order -/

theorem test_decode_add :
    decode [0x00, 0xC4] = .ok (.addRm8R8 .ah .al, []) ∧ decode [0x02, 0xC4] = .ok (.addR8Rm8 .al .ah, []) ∧
    decode [0x04, 0x5A] = .ok (.addAlImm8 0x5A, []) := by decide

theorem test_decode_or :
    decode [0x08, 0xD1] = .ok (.orRm8R8 .cl .dl, []) ∧ decode [0x0A, 0xD1] = .ok (.orR8Rm8 .dl .cl, []) ∧
    decode [0x0C, 0x01] = .ok (.orAlImm8 0x01, []) := by decide

theorem test_decode_adc :
    decode [0x10, 0xDF] = .ok (.adcRm8R8 .bh .bl, []) ∧ decode [0x12, 0xDF] = .ok (.adcR8Rm8 .bl .bh, []) ∧
    decode [0x14, 0x00] = .ok (.adcAlImm8 0x00, []) := by decide

theorem test_decode_and :
    decode [0x20, 0xEE] = .ok (.andRm8R8 .dh .ch, []) ∧ decode [0x22, 0xEE] = .ok (.andR8Rm8 .ch .dh, []) ∧
    decode [0x24, 0x0F] = .ok (.andAlImm8 0x0F, []) := by decide

theorem test_decode_sub :
    decode [0x28, 0xC1] = .ok (.subRm8R8 .cl .al, []) ∧ decode [0x2A, 0xC1] = .ok (.subR8Rm8 .al .cl, []) ∧
    decode [0x2C, 0x01] = .ok (.subAlImm8 0x01, []) := by decide

theorem test_decode_xor :
    decode [0x30, 0xC3] = .ok (.xorRm8R8 .bl .al, []) ∧ decode [0x32, 0xC3] = .ok (.xorR8Rm8 .al .bl, []) ∧
    decode [0x34, 0xFF] = .ok (.xorAlImm8 0xFF, []) := by decide

theorem test_decode_cmp :
    decode [0x38, 0xE0] = .ok (.cmpRm8R8 .al .ah, []) ∧ decode [0x3A, 0xE0] = .ok (.cmpR8Rm8 .ah .al, []) ∧
    decode [0x3C, 0x20] = .ok (.cmpAlImm8 0x20, []) := by decide

theorem test_decode_unary :
    decode [0x27] = .ok (.daa, []) ∧ decode [0x4E] = .ok (.decR16 .si, []) ∧ decode [0xD3, 0xD1] = .ok (.rclRm16Cl .cx, []) ∧
    decode [0xFE, 0xC4] = .ok (.incRm8 .ah, []) := by decide

theorem test_decode_stack :
    decode [0x55] = .ok (.pushR16 .bp, []) ∧ decode [0x5F] = .ok (.popR16 .di, []) ∧ decode [0x60] = .ok (.pusha, []) ∧
    decode [0x9C] = .ok (.pushf, []) ∧ decode [0x9D] = .ok (.popf, []) := by decide

theorem test_decode_string :
    decode [0xA4] = .ok (.movsb, []) ∧ decode [0xA5] = .ok (.movsw, []) ∧ decode [0xAA] = .ok (.stosb, []) ∧
    decode [0xAB] = .ok (.stosw, []) ∧ decode [0xAC] = .ok (.lodsb, []) ∧ decode [0xAD] = .ok (.lodsw, []) := by decide

theorem test_decode_control :
    decode [0xEB, 0xFE] = .ok (.jmpRel8 0xFE, []) ∧ decode [0x72, 0x01] = .ok (.jbRel8 0x01, []) ∧
    decode [0x74, 0x02] = .ok (.jzRel8 0x02, []) ∧ decode [0x75, 0xFB] = .ok (.jnzRel8 0xFB, []) ∧
    decode [0x76, 0x10] = .ok (.jbeRel8 0x10, []) ∧ decode [0xE2, 0xFC] = .ok (.loopRel8 0xFC, []) ∧
    decode [0xE8, 0x04, 0x01] = .ok (.callRel16 0x0104, []) ∧ decode [0xC3] = .ok (.ret, []) ∧
    decode [0xCD, 0x21] = .ok (.intImm8 0x21, []) := by decide

theorem test_decode_move :
    decode [0x88, 0xC4] = .ok (.movRm8R8 .ah .al, []) ∧ decode [0x89, 0xC3] = .ok (.movRm16R16 .bx .ax, []) ∧
    decode [0x8A, 0xC4] = .ok (.movR8Rm8 .al .ah, []) ∧ decode [0x8B, 0xFE] = .ok (.movR16Rm16 .di .si, []) ∧
    decode [0x8C, 0xC8] = .ok (.movRm16Cs .ax, []) ∧ decode [0x8C, 0xD8] = .ok (.movRm16Ds .ax, []) ∧
    decode [0x8E, 0xC8] = .ok (.movCsRm16 .ax, []) ∧ decode [0x8E, 0xD8] = .ok (.movDsRm16 .ax, []) ∧
    decode [0xB4, 0x4C] = .ok (.movR8Imm8 .ah 0x4C, []) ∧ decode [0xBC, 0x34, 0x12] = .ok (.movR16Imm16 .sp 0x1234, []) := by
  decide

/-! ### One step each -/

/-- E3.2 and E3.3. -/
theorem test_add_flags :
    after (fun t => (t.ax, status t)) (code [0x04, 0x01] { base with ax := 0xFF }) =
      some (0, [true, true, true, true, false, false]) ∧
    after (fun t => (t.ax, status t)) (code [0x04, 0x01] { base with ax := 0x7F }) =
      some (0x80, [false, false, true, false, true, true]) := by decide

/-- R123: `ADD AH, AL` writes rm, `ADD AL, AH` writes reg, and `ADD AL, AL` doubles (R107). -/
theorem test_add_direction :
    after (·.ax) (code [0x00, 0xC4] { base with ax := 0x1203 }) = some 0x1503 ∧
    after (·.ax) (code [0x02, 0xC4] { base with ax := 0x1203 }) = some 0x1215 ∧
    after (·.ax) (code [0x00, 0xC0] { base with ax := 0x1203 }) = some 0x1206 := by decide

/-- R124's corner cases. -/
theorem test_adc_flags :
    after (fun t => (t.ax, status t)) (code [0x14, 0xFF] { withStatus true false false false false false with ax := 0xFF }) =
      some (0xFF, [true, true, true, false, true, false]) ∧
    after (fun t => (t.ax, status t)) (code [0x14, 0x00] { withStatus true false false false false false with ax := 0x7F }) =
      some (0x80, [false, false, true, false, true, true]) := by decide

theorem test_adc_direction :
    after (·.bx) (code [0x10, 0xDF] { withStatus true false false false false false with bx := 0x1203 }) = some 0x1603 ∧
    after (·.bx) (code [0x12, 0xDF] { base with bx := 0x1203 }) = some 0x1215 := by decide

/-- E3.4, and R125: 0x00 - 0x01. -/
theorem test_sub_flags :
    after (fun t => (t.ax, status t)) (code [0x2C, 0x01] { base with ax := 0x80 }) =
      some (0x7F, [false, false, true, false, false, true]) ∧
    after (fun t => (t.ax, status t)) (code [0x2C, 0x01] base) =
      some (0xFF, [true, true, true, false, true, false]) := by decide

theorem test_sub_direction :
    after (fun t => (t.ax, t.cx)) (code [0x28, 0xC1] { base with ax := 0x03, cx := 0x12 }) = some (0x03, 0x0F) ∧
    after (fun t => (t.ax, t.cx)) (code [0x2A, 0xC1] { base with ax := 0x12, cx := 0x03 }) = some (0x0F, 0x03) := by decide

/-- E3.5, and R126's example. -/
theorem test_cmp_flags :
    after (fun t => (t.ax, status t)) (code [0x3C, 0x01] { base with ax := 0x80 }) =
      some (0x80, [false, false, true, false, false, true]) ∧
    after (fun t => (t.ax, status t)) (code [0x3C, 0x20] { base with ax := 0x10 }) =
      some (0x10, [true, true, false, false, true, false]) := by decide

/-- The first operand is rm in 38 and reg in 3A. -/
theorem test_cmp_direction :
    after (·.flag .cf) (code [0x38, 0xE0] { base with ax := 0x0110 }) = some false ∧
    after (·.flag .cf) (code [0x3A, 0xE0] { base with ax := 0x0110 }) = some true := by decide

/-- R127's example; AF is a draw. -/
theorem test_and :
    after (fun t => (t.ax, [t.flag .cf, t.flag .of, t.flag .zf, t.flag .sf, t.flag .pf])) (code [0x24, 0x0F] { base with ax := 0xF0 }) =
      some (0, [false, false, true, false, true]) ∧
    after (·.dx) (code [0x20, 0xEE] { base with cx := 0x3C00, dx := 0x0F55 }) = some 0x0C55 := by decide

/-- R128's example. -/
theorem test_or :
    after (fun t => (t.ax, [t.flag .cf, t.flag .of, t.flag .zf, t.flag .sf, t.flag .pf])) (code [0x0C, 0x01] { base with ax := 0x80 }) =
      some (0x81, [false, false, false, true, true]) ∧
    after (fun t => (t.cx, t.dx)) (code [0x0A, 0xD1] { base with cx := 0x0F, dx := 0x30 }) = some (0x0F, 0x3F) := by decide

/-- R129's example. -/
theorem test_xor :
    after (fun t => (t.ax, [t.flag .cf, t.flag .of, t.flag .zf, t.flag .sf, t.flag .pf])) (code [0x30, 0xC0] { base with ax := 0x5A }) =
      some (0, [false, false, true, false, true]) ∧
    after (·.ax) (code [0x34, 0xFF] { base with ax := 0x5A }) = some 0xA5 := by decide

/-- E4.1, and R130: AL = 0x00 with CF = 1. -/
theorem test_daa :
    after (fun t => (t.ax, t.flag .cf, t.flag .af)) (code [0x27] { base with ax := 0x9A }) = some (0, true, true) ∧
    after (fun t => (t.ax, t.flag .cf)) (code [0x27] (withStatus true false false false false false)) = some (0x60, true) := by decide

/-- R130: AL = 0x99 with CF = AF = 0 is unchanged; AL = 0x99 with AF = 1 gains 6 only. -/
theorem test_daa_ninety_nine :
    after (fun t => (t.ax, t.flag .cf)) (code [0x27] { base with ax := 0x99 }) = some (0x99, false) ∧
    after (fun t => (t.ax, t.flag .cf, t.flag .af)) (code [0x27] { withStatus false false true false false false with ax := 0x99 }) =
      some (0x9F, false, true) := by decide

/-- E5.1 and E5.2; PF, AF, ZF and SF keep their values. -/
theorem test_rcl_one :
    after (fun t => (t.ax, status t)) (code [0xD3, 0xD0] { withStatus true true true true true false with ax := 0x8000, cx := 1 }) =
      some (0x0001, [true, true, true, true, true, true]) ∧
    after (fun t => (t.ax, status t)) (code [0xD3, 0xD0] { base with ax := 0x8000, cx := 1 }) =
      some (0, [true, false, false, false, false, true]) := by decide

/-- R131: 17 positions give the operand and CF back and clear OF; the count of `RCL CX, CL` is the one before it. -/
theorem test_rcl_counts :
    after (fun t => (t.ax, t.flag .cf, t.flag .of)) (code [0xD3, 0xD0] { withStatus true false false false false true with ax := 0x1234, cx := 17 }) =
      some (0x1234, true, false) ∧
    after (fun t => (t.cx, t.flag .cf)) (code [0xD3, 0xD1] { base with cx := 0x4002 }) = some (0x0008, true) := by decide

/-- R132: 0x8000 and 0x0010 (the nibble mask, C4). -/
theorem test_dec :
    after (fun t => (t.ax, [t.flag .of, t.flag .af, t.flag .zf, t.flag .sf, t.flag .pf])) (code [0x48] { base with ax := 0x8000 }) =
      some (0x7FFF, [true, true, false, false, true]) ∧
    after (fun t => (t.ax, [t.flag .of, t.flag .af, t.flag .zf, t.flag .sf, t.flag .pf])) (code [0x48] { base with ax := 0x0010 }) =
      some (0x000F, [false, true, false, false, true]) := by decide

/-- R133: no flag, not even ZF; INC AH carries nothing into AL. -/
theorem test_inc :
    after (fun t => (t.ax, t.flags.toWord)) (code [0xFE, 0xC0] { base with ax := 0x00FF }) = some (0, 0x0200) ∧
    after (·.ax) (code [0xFE, 0xC4] { base with ax := 0xFF00 }) = some 0 := by decide

/-- R161's example, and both directions of wrapping. -/
theorem test_movsb :
    after (fun t => (t.mem.read 0x300, t.si, t.di)) (code [0xA4] { base with si := 0x200, di := 0x300, mem := [(0x200, 0xAB)] }) =
      some (0xAB, 0x201, 0x301) ∧
    after (fun t => (t.si, t.di)) (code [0xA4] { base with si := 0, di := 0x300, flags := { base.flags with df := true } }) =
      some (0xFFFF, 0x2FF) := by decide

/-- R162's example. -/
theorem test_movsw :
    after (fun t => (t.mem.read 0x300, t.mem.read 0x301, t.si, t.di))
      (code [0xA5] { base with si := 0x200, di := 0x300, mem := [(0x200, 0x34), (0x201, 0x12)], flags := { base.flags with df := true } }) =
      some (0x34, 0x12, 0x1FE, 0x2FE) ∧
    faults (code [0xA5] { base with si := 0xFFFF }) = some (.fatal (.offsetWrap 0 0xFFFF) 0 0x100) := by decide

/-- R163's example: DF = 1 still goes up, AH stays. -/
theorem test_lodsb :
    after (fun t => (t.ax, t.si))
      (code [0xAC] { base with ax := 0x7700, si := 0x202, mem := [(0x202, 0x05)], flags := { base.flags with df := true } }) =
      some (0x7705, 0x203) := by decide

/-- R164's example. -/
theorem test_lodsw :
    after (fun t => (t.ax, t.si)) (code [0xAD] { base with si := 0x200, mem := [(0x200, 0x34), (0x201, 0x12)] }) = some (0x1234, 0x202) := by
  decide

/-- R165's example, with DF = 1. -/
theorem test_stosb :
    after (fun t => (t.mem.read 0x300, t.mem.read 0x301, t.di))
      (code [0xAA] { base with ax := 0x9941, di := 0x300, flags := { base.flags with df := true } }) = some (0x41, 0, 0x301) := by decide

/-- R166's example. -/
theorem test_stosw :
    after (fun t => (t.mem.read 0x300, t.mem.read 0x301, t.di)) (code [0xAB] { base with ax := 0x1234, di := 0x300 }) =
      some (0x34, 0x12, 0x302) := by decide

/-- R182's example; `PUSH SP` pushes the lowered SP (D34). -/
theorem test_push :
    after (fun t => (t.sp, t.mem.read 0xFFE, t.mem.read 0xFFF)) (code [0x50] { base with sp := 0x1000, ax := 0x1234 }) =
      some (0xFFE, 0x34, 0x12) ∧
    after (fun t => (t.sp, t.mem.read 0xFFE, t.mem.read 0xFFF)) (code [0x54] { base with sp := 0x1000 }) =
      some (0xFFE, 0xFE, 0x0F) := by decide

/-- R183's example; `POP SP` leaves the popped word plus 2 (D34). -/
theorem test_pop :
    after (fun t => (t.bx, t.sp)) (code [0x5B] { base with sp := 0xFFE, mem := [(0xFFE, 0x34), (0xFFF, 0x12)] }) = some (0x1234, 0x1000) ∧
    after (·.sp) (code [0x5C] { base with sp := 0xFFE, mem := [(0xFFE, 0x34), (0xFFF, 0x12)] }) = some 0x1236 := by decide

/-- R184's example. -/
theorem test_pusha :
    after (fun t => (t.sp, [wordAt t.mem 0xFFE, wordAt t.mem 0xFFC, wordAt t.mem 0xFFA, wordAt t.mem 0xFF8, wordAt t.mem 0xFF6,
        wordAt t.mem 0xFF4, wordAt t.mem 0xFF2, wordAt t.mem 0xFF0]))
      (code [0x60] { base with ax := 1, cx := 2, dx := 3, bx := 4, sp := 0x1000, bp := 6, si := 7, di := 8 }) =
      some (0xFF0, [1, 2, 3, 4, 0x1000, 6, 7, 8]) := by decide

/-- R185's example: the pushed word after reset is 0x0200. -/
theorem test_pushf :
    after (fun t => (t.sp, wordAt t.mem 0xFFE)) (code [0x9C] { base with sp := 0x1000 }) = some (0xFFE, 0x0200) := by decide

/-- R186: all 16 bits, the unused ones too. -/
theorem test_popf :
    after (fun t => (t.sp, t.flags.toWord, t.flag .df, t.flag .tf, t.flag .intf)) (code [0x9D] { base with sp := 0xFFE, mem := [(0xFFE, 0x02), (0xFFF, 0xF5)] }) =
      some (0x1000, 0xF502, true, true, false) := by decide

/-- E6.3, E6.4 and E6.6. -/
theorem test_jmp :
    after (·.ip) (code [0xEB, 0xFE] base) = some 0x100 ∧ after (·.ip) (code [0xEB, 0x80] base) = some 0x82 ∧
    after (·.ip) (code [0xEB, 0x7F] { base with ip := 0xFFF0 }) = some 0x71 := by decide

/-- R202's example. -/
theorem test_jb :
    after (·.ip) (code [0x72, 0x01] { withStatus true false false false false false with ip := 0x108 }) = some 0x10B ∧
    after (·.ip) (code [0x72, 0x01] { base with ip := 0x108 }) = some 0x10A := by decide

/-- R203: CF = 0 with ZF = 1 is taken, CF = 0 with ZF = 0 is not. -/
theorem test_jbe :
    after (·.ip) (code [0x76, 0x10] { withStatus false false false true false false with ip := 0x200 }) = some 0x212 ∧
    after (·.ip) (code [0x76, 0x10] { base with ip := 0x200 }) = some 0x202 := by decide

/-- R204's example, and not taken. -/
theorem test_jz :
    after (·.ip) (code [0x74, 0x02] { withStatus false false false true false false with ip := 0x107 }) = some 0x10B ∧
    after (·.ip) (code [0x74, 0x02] { base with ip := 0x107 }) = some 0x109 := by decide

/-- R205's example, and not taken. -/
theorem test_jnz :
    after (·.ip) (code [0x75, 0xFB] { base with ip := 0x10C }) = some 0x109 ∧
    after (·.ip) (code [0x75, 0xFB] { withStatus false false false true false false with ip := 0x10C }) = some 0x10E := by decide

/-- R206: CX = 1 falls through, CX = 0 wraps and jumps; no flag. -/
theorem test_loop :
    after (fun t => (t.cx, t.ip, t.flags.toWord)) (code [0xE2, 0xFE] { base with cx := 1 }) = some (0, 0x102, 0x0200) ∧
    after (fun t => (t.cx, t.ip)) (code [0xE2, 0xFE] base) = some (0xFFFF, 0x100) := by decide

/-- R207's example. -/
theorem test_call :
    after (fun t => (t.sp, wordAt t.mem 0xFFFC, t.ip)) (code [0xE8, 0x04, 0x00] { base with ip := 0x106 }) =
      some (0xFFFC, 0x0108, 0x10D) := by decide

/-- R208's examples: one past the popped word, and the end of the run with SP raised, IP and TICKS kept. -/
theorem test_ret :
    after (fun t => (t.sp, ends t)) (code [0xC3] { base with sp := 0xFFFC, mem := [(0xFFFC, 0x08), (0xFFFD, 0x01)] }) =
      some (0xFFFE, .running, 0x109, 1) ∧
    after (fun t => (t.sp, ends t)) (code [0xC3] { base with sp := 0xFFFC }) = some (0xFFFE, .halted (.exit 0), 0x100, 0) := by decide

/-- R220's example. -/
theorem test_int_print_character :
    after (fun t => (t.output, ends t)) (code [0xCD, 0x10] { base with ax := 0x0E41, output := [0x42] }) =
      some ([0x42, 0x41], .running, 0x102, 1) := by decide

/-- R224 with the DOS parameters: "AB$". -/
theorem test_int_print_string :
    after (fun t => (t.output, ends t)) (code [0xCD, 0x21] { base with ax := 0x0900, dx := 0x200, mem := [(0x200, 0x41), (0x201, 0x42), (0x202, 0x24)] }) =
      some ([0x41, 0x42], .running, 0x102, 1) := by decide

/-- R225 and R105: IP stays at IP0 + 1, TICKS is not raised. -/
theorem test_int_exit :
    after ends (code [0xCD, 0x21] { base with ax := 0x4C07 }) = some (.halted (.exit 7), 0x101, 0) := by decide

/-- R226. -/
theorem test_int_unsupported :
    faults (code [0xCD, 0x03] { base with ax := 0x0E00 }) = some (.fatal (.badInterrupt 0x03 0x0E) 0 0x100) ∧
    faults (code [0xCD, 0x10] { base with ax := 0x0900 }) = some (.fatal (.badBiosFunction 0x10 0x09) 0 0x100) ∧
    faults (code [0xCD, 0x21] { base with ax := 0x0E00 }) = some (.fatal (.badBiosFunction 0x21 0x0E) 0 0x100) := by decide

/-- E1.4, and 88 E0 as the other direction of 8A C4 (R242). -/
theorem test_mov_byte :
    after (·.ax) (code [0x88, 0xC4] { base with ax := 0x0041 }) = some 0x4141 ∧
    after (·.ax) (code [0x8A, 0xC4] { base with ax := 0x4100 }) = some 0x4141 ∧
    after (·.ax) (code [0xB4, 0x4C] { base with ax := 0x0041 }) = some 0x4C41 := by decide

/-- The examples of R241, R243 and R247. -/
theorem test_mov_word :
    after (·.bx) (code [0x89, 0xC3] { base with ax := 0x1234 }) = some 0x1234 ∧
    after (·.di) (code [0x8B, 0xFE] { base with si := 0x200 }) = some 0x200 ∧
    after (fun t => (t.ax, t.ip)) (code [0xB8, 0x00, 0x4C] base) = some (0x4C00, 0x103) := by decide

/-- The examples of R244. -/
theorem test_mov_from_segment :
    after (·.ax) (code [0x8C, 0xD8] { base with ds := 0x1000 }) = some 0x1000 ∧
    after (·.ax) (code [0x8C, 0xC8] { base with cs := 0x0020 }) = some 0x0020 := by decide

/-- R245: the next fetch uses the new CS (D36). -/
theorem test_mov_to_segment :
    after (fun t => (t.ds, t.cs)) (code [0x8E, 0xD8] { base with ax := 0x0020 }) = some (0x0020, 0) ∧
    after (fun t => lin t.cs t.ip) (code [0x8E, 0xC8] { base with ax := 0x0020 }) = some 0x302 := by decide

/-- E2.2: the MOVSB across a paragraph boundary. -/
theorem test_segmented_address :
    after (fun t => (t.mem.read 0x300, t.si, t.di)) (code [0xA4] { base with ds := 1, si := 0x10, di := 0x300, mem := [(0x20, 0x5A)] }) =
      some (0x5A, 0x11, 0x301) := by decide

/-- Reset with nothing placed (log entry 6): the bytes 00 00 at 0x0100 are an ADD with mod = 0. -/
theorem test_reset_step : faults base = some (.fatal (.modrmMode 0) 0 0x100) := by decide

/-- The host's two entry points on one word: `ADD AL, 0x01`. -/
theorem test_host_word :
    decodeTableWord 16 0x0104 = some (.addAlImm8 0x01) ∧ after (·.ax) (State.reset.withFetchWord 16 0x0104) = some 1 := by decide

/-- A two-byte row as the table writes it, opcode byte first: `00C0` and `8ED8` (log entry 18). -/
theorem test_table_order :
    decodeTableWord 16 0x00C0 = some (.addRm8R8 .al .al) ∧ decodeTableWord 16 0x8ED8 = some (.movDsRm16 .ax) ∧
    after (·.bx) (State.reset.withFetchWord 16 0x89C3) = some 0 := by decide

/-! ### Witnesses: decoding -/

theorem witness_EncodeOfDecode : decode [0xB8, 0x00, 0x4C, 0x90] = .ok (.movR16Imm16 .ax 0x4C00, [0x90]) := by decide

theorem witness_ModrmAcceptedExactly_registers :
    modrmUse 0x00 = some .registers ∧ modrmUse 0x8B = some .registers ∧ ModrmWellFormed .registers 0xC0 ∧ ¬ ModeWellFormed 0xBF := by
  decide

theorem witness_ModrmAcceptedExactly_fields :
    modrmUse 0xD3 = some (.extension 2) ∧ modrmUse 0xFE = some (.extension 0) ∧ modrmUse 0x8E = some .segment ∧
    ModrmWellFormed (.extension 2) 0xD7 ∧ ModrmWellFormed .segment 0xC8 ∧ ModrmWellFormed .segment 0xDF ∧
    ModeWellFormed 0xD8 ∧ ¬ FieldWellFormed (.extension 2) 0xD8 ∧ ¬ FieldWellFormed (.extension 0) 0xC8 ∧
    ¬ FieldWellFormed .segment 0xC0 ∧ ¬ FieldWellFormed .segment 0xFF := by decide

theorem witness_LengthFromOpcode_unassigned : Unassigned 0x01 ∧ Unassigned 0x3D ∧ Unassigned 0x47 ∧ Unassigned 0xFF := by
  unfold Unassigned; decide

theorem witness_LengthFromOpcode_assigned : ¬ Unassigned 0x00 ∧ ¬ Unassigned 0x48 ∧ ¬ Unassigned 0xFE := by
  unfold Unassigned; decide

/-! ### Witnesses: the step -/

theorem witness_CanFetch : CanFetch base := by decide

/-- The last place a three-byte instruction can start in a segment. -/
theorem witness_StepRunsDecodedInstruction :
    let s := code [0xB8, 0x00, 0x4C] { base with ip := 0xFFFD }
    CanFetch s ∧ decode [0xB8, 0x00, 0x4C] = .ok (.movR16Imm16 .ax 0x4C00, []) ∧ s.ip.toNat + 3 ≤ 0x10000 ∧
    lin s.cs s.ip + 3 ≤ 524288 ∧
    s.mem.read 0xFFFD = 0xB8 ∧ s.mem.read 0xFFFE = 0x00 ∧ s.mem.read 0xFFFF = 0x4C := by decide

theorem witness_BudgetEndsRun :
    let s := { base with ticks := 1001 }
    s.run = .running ∧ s.ticks > s.params.tickBudget ∧ CanFetch { base with ticks := 1000 } := by decide

theorem witness_HaltedHasNoStep : refusalOf (step (base.terminate 0)) = some .halted := by decide

theorem witness_FetchFaults_address :
    let s := { base with cs := 0x7FFF, ip := 0x10 }
    CanFetch s ∧ lin s.cs s.ip = 524288 ∧ faults s = some (.fatal (.addressRange 524288) 0x7FFF 0x10) := by decide

theorem witness_FetchFaults_opcode :
    let s := code [0x01] { base with cs := 0x7FFF, ip := 0x0F }
    CanFetch s ∧ lin s.cs s.ip = 524287 ∧ faults s = some (.fatal (.unassignedOpcode 0x01) 0x7FFF 0x0F) := by decide

theorem witness_FetchFaults_wrap_first :
    let s := code [0xEB] { base with ip := 0xFFFF }
    CanFetch s ∧ lengthOf 0xEB = some 2 ∧ faults s = some (.fatal (.offsetWrap 0 0xFFFF) 0 0xFFFF) := by decide

theorem witness_FetchFaults_address_first :
    let s := code [0xB8] { base with cs := 0x7FFF, ip := 0x0F }
    CanFetch s ∧ lengthOf 0xB8 = some 3 ∧ lin s.cs s.ip + 1 = 524288 ∧ faults s = some (.fatal (.addressRange 524288) 0x7FFF 0x0F) := by
  decide

theorem witness_FetchFaults_wrap_second :
    let s := code [0xB8, 0x55] { base with ip := 0xFFFE }
    CanFetch s ∧ lin s.cs s.ip + 1 < 524288 ∧ faults s = some (.fatal (.offsetWrap 0 0xFFFF) 0 0xFFFE) := by decide

theorem witness_FetchFaults_address_second :
    let s := code [0xB8, 0x55] { base with cs := 0x7FFF, ip := 0x0E }
    CanFetch s ∧ lin s.cs s.ip + 1 = 524287 ∧ faults s = some (.fatal (.addressRange 524288) 0x7FFF 0x0E) := by decide

theorem witness_ModrmFaults_mode :
    let s := code [0xD3, 0xBF] base
    CanFetch s ∧ modrmUse 0xD3 = some (.extension 2) ∧ ¬ ModeWellFormed 0xBF ∧ s.mem.read 0x101 = 0xBF ∧
    faults s = some (.fatal (.modrmMode 0xBF) 0 0x100) := by decide

theorem witness_ModrmFaults_field :
    let s := code [0xFE, 0xC8] base
    CanFetch s ∧ modrmUse 0xFE = some (.extension 0) ∧ ModeWellFormed 0xC8 ∧ ¬ FieldWellFormed (.extension 0) 0xC8 ∧
    faults s = some (.fatal (.modrmField 0xC8) 0 0x100) ∧
    faults (code [0x8C, 0xD0] base) = some (.fatal (.modrmField 0xD0) 0 0x100) := by decide

/-! ### Witnesses: memory and reset -/

theorem witness_WordStoreThenLoad_faults :
    Memory.wf [(5, 1)] = true ∧ wordFault 0x7FFF 0xFFFF = some (.offsetWrap 0x7FFF 0xFFFF) ∧
    wordFault 0x7FFF 0x10 = some (.addressRange 524288) ∧ wordFault 0x7FFF 0x0F = some (.addressRange 524288) := by decide

theorem witness_WordStoreThenLoad_stores : Memory.wf [] = true ∧ wordFault 0x7FFF 0x0E = none ∧ wordFault 0 0xFFFE = none := by decide

theorem witness_MemoryStaysCanonical :
    let s := code [0xAA] { base with ax := 0x41, di := 0x300 }
    s.MemOk ∧ (nextOf (step s)).isSome = true := by decide

theorem witness_LaunchState_refused :
    let p := { LaunchParams.test [0x90] with loadOffset := 524288 }
    p.loadOffset + p.image.length > 524288 := by decide

theorem witness_LaunchState_fits :
    let p := { LaunchParams.test [0x90] with loadOffset := 524287 }
    p.loadOffset + p.image.length ≤ 524288 := by decide

/-! ### Witnesses: arithmetic -/

theorem witness_DecimalAdjust : LowCorrected { base with ax := 0x0A } ∧ ¬ LowCorrected { base with ax := 0x09 } ∧
    HighCorrected { base with ax := 0x9A } ∧ ¬ HighCorrected { base with ax := 0x99 } := by
  unfold LowCorrected HighCorrected; decide

theorem witness_RotateLeftThroughCarry :
    (State.reg8 { base with cx := 0x4001 } .cl).toNat = 1 ∧ (State.reg8 { base with cx := 2 } .cl).toNat ≥ 2 ∧
    (State.reg8 { base with cx := 0xFF } .cl).toNat ≥ 2 := by decide

theorem witness_RotateIsSeventeenBits : (nextOf (exec (.rclRm16Cl .ax) { base with cx := 17 })).isSome = true := by decide

/-! ### Witnesses: strings and the stack. A fault of each kind, and the last address that serves. -/

theorem witness_MoveStringByte :
    byteFault 0x7FFF 0x10 = some (.addressRange 524288) ∧ byteFault 0x7FFF 0x0F = none ∧ base.MemOk ∧
    byteFault base.ds base.si = none ∧ byteFault base.es base.di = none := by decide

theorem witness_MoveStringByte_write_fault :
    let s := { base with es := 0x8000 }
    firstFault [byteFault s.ds s.si, byteFault s.es s.di] = some (.addressRange 524288) := by decide

theorem witness_MoveStringWord :
    let s := { base with si := 0xFFFE, di := 1 }
    wordFault s.ds s.si = none ∧ wordFault s.es s.di = none ∧ s.MemOk ∧
    firstFault [wordFault 0 0xFFFF, wordFault 0 0] = some (.offsetWrap 0 0xFFFF) ∧
    firstFault [wordFault 0 0, wordFault 0x8000 0] = some (.addressRange 524288) := by decide

theorem witness_LoadString :
    byteFault base.ds base.si = none ∧ wordFault base.ds base.si = none ∧
    firstFault [byteFault 0x8000 0] = some (.addressRange 524288) ∧ firstFault [wordFault 0 0xFFFF] = some (.offsetWrap 0 0xFFFF) := by
  decide

theorem witness_StoreString :
    let s := { base with es := 0x7FFF, di := 0x0F }
    s.MemOk ∧ byteFault s.es s.di = none ∧ firstFault [wordFault s.es s.di] = some (.addressRange 524288) ∧
    wordFault base.es base.di = none := by decide

theorem witness_PushWord :
    base.MemOk ∧ wordFault base.ss (base.sp - 2) = none ∧ wordFault 0 (0x0000 - 2) = none ∧
    firstFault [wordFault 0 (0x0001 - 2)] = some (.offsetWrap 0 0xFFFF) := by decide

theorem witness_PopWord :
    wordFault base.ss base.sp = none ∧ (Reg16.di ≠ .sp) ∧ firstFault [wordFault 0 0xFFFF] = some (.offsetWrap 0 0xFFFF) := by decide

theorem witness_PushAll :
    base.MemOk ∧ (∀ k ∈ [2, 4, 6, 8, 10, 12, 14, 16], wordFault base.ss (base.sp - BitVec.ofNat 16 k) = none) ∧
    firstFault [wordFault 0 (5 - 2), wordFault 0 (5 - 4), wordFault 0 (5 - 6), wordFault 0 (5 - 8)] = some (.offsetWrap 0 0xFFFF) := by
  decide

theorem witness_PushFlags :
    base.MemOk ∧ wordFault base.ss (base.sp - 2) = none ∧ firstFault [wordFault 0x8000 (2 - 2)] = some (.addressRange 524288) := by decide

theorem witness_PopFlags :
    wordFault base.ss base.sp = none ∧ firstFault [wordFault 0x7FFF 0x0F] = some (.addressRange 524288) := by decide

/-! ### Witnesses: control transfer and INT -/

theorem witness_RelativeJumps :
    base.flag .cf = false ∧ base.flag .zf = false ∧ (withStatus true false false true false false).flag .cf = true ∧
    (withStatus true false false true false false).flag .zf = true := by decide

theorem witness_LoopOnCx :
    (nextOf (exec (.loopRel8 0) { base with cx := 1 })).map (·.cx) = some 0 ∧
    (nextOf (exec (.loopRel8 0) { base with cx := 0 })).map (·.cx) = some 0xFFFF := by decide

theorem witness_CallNear :
    base.MemOk ∧ wordFault base.ss (base.sp - 2) = none ∧ firstFault [wordFault 0 (1 - 2)] = some (.offsetWrap 0 0xFFFF) := by decide

theorem witness_ReturnNear :
    let s := { base with mem := [(0xFFFE, 0x01)] }
    wordFault base.ss base.sp = none ∧ wordAt base.mem (lin base.ss base.sp) = 0 ∧ wordAt s.mem (lin s.ss s.sp) ≠ 0 ∧
    firstFault [wordFault 0 0xFFFF] = some (.offsetWrap 0 0xFFFF) := by decide

theorem witness_CallThenReturn : base.MemOk ∧ wordFault base.ss (base.sp - 2) = none ∧ base.ip ≠ 0xFFFE := by decide

theorem witness_IntPrintsCharacter : State.reg8 { base with ax := 0x0E41 } .ah = 0x0E := by decide

theorem witness_IntPrintsString_sentinel :
    let s := { base with ax := 0x0900, dx := 0xFFFE, mem := [(0xFFFE, 0x41), (0xFFFF, 0x24)] }
    s.reg8 .ah = 0x09 ∧ StringReaches s 1 ∧ (s.reg16 s.params.pstrReg).toNat + 1 ≤ 0xFFFF ∧ stringAddress s 1 < 524288 ∧
    s.mem.read (stringAddress s 1) = s.params.sentinel := by
  unfold StringReaches; decide

theorem witness_IntPrintsString_address :
    let s := { base with ax := 0x0900, ds := 0x7FFF, dx := 0x0F, mem := [(0x7FFFF, 0x41)] }
    s.reg8 .ah = 0x09 ∧ StringReaches s 1 ∧ (s.reg16 s.params.pstrReg).toNat + 1 ≤ 0xFFFF ∧ stringAddress s 1 = 524288 := by
  unfold StringReaches; decide

theorem witness_IntPrintsString_wrap :
    let s := { base with ax := 0x0900, dx := 0xFFFF, mem := [(0xFFFF, 0x41)] }
    s.reg8 .ah = 0x09 ∧ StringReaches s 1 ∧ (s.reg16 s.params.pstrReg).toNat + 1 = 0x10000 ∧
    faults (code [0xCD, 0x21] s) = some (.fatal (.offsetWrap 0 0x10000) 0 0x100) := by
  unfold StringReaches; decide

theorem witness_IntExits : State.reg8 { base with ax := 0x4C07 } .ah = 0x4C := by decide

theorem witness_IntUnsupported :
    ((0x03 : Byte) ≠ 0x10 ∧ (0x03 : Byte) ≠ 0x21) ∧ base.reg8 .ah ≠ 0x0E ∧ base.reg8 .ah ≠ 0x09 ∧ base.reg8 .ah ≠ 0x4C := by decide

/-! ### Witnesses: rules about the whole machine -/

theorem witness_StackAndExtraSegmentsFixed : (nextOf (step (code [0x8E, 0xD8] base))).isSome = true := by decide

theorem witness_SegmentWriters :
    (nextOf (exec (.movCsRm16 .ax) { base with ax := 1 })).map (·.cs) = some 1 ∧
    (nextOf (exec (.movDsRm16 .ax) { base with ax := 1 })).map (·.ds) = some 1 ∧ base.cs ≠ 1 ∧ base.ds ≠ 1 := by decide

theorem witness_ControlFlagWriters : (nextOf (exec .pushf base)).isSome = true ∧ Instr.pushf ≠ .popf := by decide

theorem witness_MemoryWriters : (nextOf (exec .lodsw base)).isSome = true ∧ ¬ Stores .lodsw := by
  unfold Stores; decide

theorem witness_NormalTerminations_int :
    let s := { base with ax := 0x4C07 }
    s.run = .running ∧ s.reg8 .ah = 0x4C ∧ (nextOf (exec (.intImm8 0x21) s)).map (·.run) = some (.halted (.exit 7)) := by decide

theorem witness_NormalTerminations_ret :
    base.run = .running ∧ wordAt base.mem (lin base.ss base.sp) = 0 ∧ (nextOf (exec .ret base)).map (·.run) = some (.halted (.exit 0)) := by
  decide

theorem witness_NormalTerminations_other :
    let s := { base with ax := 0x0E41 }
    s.run = .running ∧ ¬ (s.reg8 .ah = 0x4C) ∧ (nextOf (exec (.intImm8 0x10) s)).map (·.run) = some .running := by decide

theorem witness_TicksCountCompleted :
    after (fun t => (t.isHalted, t.ticks)) (code [0xEB, 0xFE] base) = some (false, 1) ∧
    after (fun t => (t.isHalted, t.ticks)) (code [0xC3] base) = some (true, 0) ∧
    after (fun t => (t.isHalted, t.ticks)) { base with ticks := 1001 } = some (true, 1001) := by decide

theorem witness_TrapAndInterruptFlagsInert : Instr.movsb ≠ .pushf ∧ Instr.movsb ≠ .popf := by decide

theorem witness_EveryRunEnds : base.run = .running ∧ State.run { base with ticks := 1001 } = .running := by decide

end Sys2Proof.Tests
end

section
/-! PROOFS. What a step leaves of the system part of the state (the segment registers, the bits of FLAGS outside the six
status flags, memory and the launch parameters): 10_state.md R25, R26, R31, R33 and R34. -/

namespace Sys2Proof.Proofs

open Sys2Proof Sys2Proof.Machine Sys2Proof.Claims

/-! ### Bodies that may raise -/

/-- A sequence of two computations succeeds exactly when both do. -/
theorem bind_ok {α β : Type} {x : Except Fatal α} {f : α → Except Fatal β} {b : β} :
    (x >>= f) = .ok b ↔ ∃ a, x = .ok a ∧ f a = .ok b := by
  cases x <;> simp [bind, Except.bind]

/-- The state in which a body ends. -/
def endState : BodyEnd → State
  | .returned s => s
  | .terminated _ s => s

/-- A step that answers a next state ended the run at the budget or executed an instruction (R98, R99). -/
theorem step_next {s t : State} (h : step s = .next t) : t = s.exhaust ∨ ∃ i, exec i s = .next t := by
  unfold step raiseFatal at h
  split at h
  · cases h
  · split at h
    · cases h
      exact .inl rfl
    · split at h
      · cases h
      · exact .inr ⟨_, h⟩

/-! ### The system part of the state -/

/-- FLAGS with the six status flags cleared: what is left is TF, IF, DF and the unused bits (R29, R33). -/
def controlFlags (f : Flags) : Flags :=
  { f with cf := false, pf := false, af := false, zf := false, sf := false, of := false }

/-- The fields that few instructions write. -/
structure SystemPart where
  es : Word
  cs : Word
  ss : Word
  ds : Word
  control : Flags
  mem : Memory
  params : RunParams

/-- The system part of a state. -/
def systemPart (s : State) : SystemPart where
  es := s.es
  cs := s.cs
  ss := s.ss
  ds := s.ds
  control := controlFlags s.flags
  mem := s.mem
  params := s.params

@[simp] theorem systemPart_advanceIp (s : State) (n : Nat) : systemPart (s.advanceIp n) = systemPart s := rfl
@[simp] theorem systemPart_endCycle (s : State) : systemPart s.endCycle = systemPart s := rfl
@[simp] theorem systemPart_drew (s : State) (n : Nat) : systemPart (s.drew n) = systemPart s := rfl
@[simp] theorem systemPart_setStatus (s : State) (x : StatusFlags) : systemPart (s.setStatus x) = systemPart s := rfl
@[simp] theorem systemPart_setCarryOverflow (s : State) (c o : Bool) :
    systemPart (s.setCarryOverflow c o) = systemPart s := rfl
@[simp] theorem systemPart_setReg16 (s : State) (r : Reg16) (v : Word) :
    systemPart (s.setReg16 r v) = systemPart s := by cases r <;> rfl
@[simp] theorem systemPart_setReg8 (s : State) (r : Reg8) (v : Byte) :
    systemPart (s.setReg8 r v) = systemPart s := by cases r <;> rfl

/-- The bits of FLAGS outside the status flags are those of `controlFlags`. -/
theorem controlFlags_bit (s : State) {k : Nat} (hk : k ∉ statusBits) :
    (controlFlags s.flags).toWord.getLsbD k = s.flags.toWord.getLsbD k :=
  s.setStatus_bits_kept ⟨false, false, false, false, false, false⟩ (by simpa [statusBits] using hk)

/-! ### What one instruction can change of it -/

/-- A change of memory alone that keeps its canonical form. -/
def StoreChange (a b : SystemPart) : Prop :=
  ∃ m : Memory, (a.mem.wf = true → m.wf = true) ∧ b = { a with mem := m }

theorem StoreChange.trans {a b c : SystemPart} (hab : StoreChange a b) (hbc : StoreChange b c) : StoreChange a c := by
  obtain ⟨m, hm, rfl⟩ := hab
  obtain ⟨m', hm', rfl⟩ := hbc
  exact ⟨m', hm' ∘ hm, rfl⟩

/-- What executing an instruction can change of the system part: nothing, CS by MOV CS, DS by MOV DS, the control bits of
FLAGS by POPF, or memory by an instruction that stores (R26, R31, R58). -/
inductive SystemChange : Instr → SystemPart → SystemPart → Prop where
  | none (i : Instr) (a : SystemPart) : SystemChange i a a
  | cs (rm : Reg16) (a : SystemPart) (w : Word) : SystemChange (.movCsRm16 rm) a { a with cs := w }
  | ds (rm : Reg16) (a : SystemPart) (w : Word) : SystemChange (.movDsRm16 rm) a { a with ds := w }
  | control (a : SystemPart) (f : Flags) : SystemChange .popf a { a with control := f }
  | store {i : Instr} {a b : SystemPart} (hi : Stores i) (hab : StoreChange a b) : SystemChange i a b

theorem SystemChange.of_eq {i : Instr} {a b : SystemPart} (h : b = a) : SystemChange i a b := h ▸ .none i a

section
variable {i : Instr} {a b : SystemPart}

/-- No instruction changes ES, SS or a launch parameter. -/
theorem SystemChange.fixed (h : SystemChange i a b) : b.es = a.es ∧ b.ss = a.ss ∧ b.params = a.params := by
  cases h with
  | none | cs | ds | control => exact ⟨rfl, rfl, rfl⟩
  | store hi hab =>
    obtain ⟨m, -, rfl⟩ := hab
    exact ⟨rfl, rfl, rfl⟩

theorem SystemChange.cs_writer (h : SystemChange i a b) : b.cs = a.cs ∨ ∃ rm, i = .movCsRm16 rm := by
  cases h with
  | none | ds | control => exact .inl rfl
  | cs rm => exact .inr ⟨rm, rfl⟩
  | store hi hab =>
    obtain ⟨m, -, rfl⟩ := hab
    exact .inl rfl

theorem SystemChange.ds_writer (h : SystemChange i a b) : b.ds = a.ds ∨ ∃ rm, i = .movDsRm16 rm := by
  cases h with
  | none | cs | control => exact .inl rfl
  | ds rm => exact .inr ⟨rm, rfl⟩
  | store hi hab =>
    obtain ⟨m, -, rfl⟩ := hab
    exact .inl rfl

theorem SystemChange.control_writer (h : SystemChange i a b) : b.control = a.control ∨ i = .popf := by
  cases h with
  | none | cs | ds => exact .inl rfl
  | control => exact .inr rfl
  | store hi hab =>
    obtain ⟨m, -, rfl⟩ := hab
    exact .inl rfl

theorem SystemChange.mem_wf (h : SystemChange i a b) (ha : a.mem.wf = true) : b.mem.wf = true := by
  cases h with
  | none | cs | ds | control => exact ha
  | store hi hab =>
    obtain ⟨m, hm, rfl⟩ := hab
    exact hm ha

end

/-! ### The bodies that leave the system part as it is -/

section
variable (s : State)

theorem addBody_system (d : Reg8) (x : Source8) : systemPart (addBody d x s) = systemPart s := by simp [addBody]

theorem adcBody_system (d : Reg8) (x : Source8) : systemPart (adcBody d x s) = systemPart s := by simp [adcBody]

theorem subBody_system (d : Reg8) (x : Source8) : systemPart (subBody d x s) = systemPart s := by simp [subBody]

theorem cmpBody_system (d : Reg8) (x : Source8) : systemPart (cmpBody d x s) = systemPart s := by simp [cmpBody]

theorem logicBody_system (f : Byte → Byte → Byte) (d : Reg8) (x : Source8) :
    systemPart (logicBody f d x s) = systemPart s := by simp [logicBody]

theorem daaBody_system : systemPart (daaBody s) = systemPart s := by simp [daaBody]

theorem rclBody_system (d : Reg16) : systemPart (rclBody d s) = systemPart s := by simp [rclBody]

theorem decBody_system (d : Reg16) : systemPart (decBody d s) = systemPart s := by simp [decBody]

theorem incBody_system (d : Reg8) : systemPart (incBody d s) = systemPart s := by simp [incBody]

theorem mov8Body_system (d : Reg8) (x : Source8) : systemPart (mov8Body d x s) = systemPart s := by simp [mov8Body]

theorem mov16Body_system (d : Reg16) (x : Source16) : systemPart (mov16Body d x s) = systemPart s := by
  simp [mov16Body]

theorem jumpIf_system (c : Bool) (d : Byte) : systemPart (jumpIf c d s) = systemPart s := by cases c <;> rfl

theorem loopBody_system (d : Byte) : systemPart (loopBody d s) = systemPart s :=
  jumpIf_system { s with cx := s.cx - 1 } _ d

end

section
variable {s t : State}

theorem popBody_system {r : Reg16} (h : popBody r s = .ok t) : systemPart t = systemPart s := by
  obtain ⟨v, -, ht⟩ := bind_ok.1 h
  cases ht
  exact systemPart_setReg16 s r v

theorem lodsbBody_system (h : lodsbBody s = .ok t) : systemPart t = systemPart s := by
  obtain ⟨v, -, ht⟩ := bind_ok.1 h
  cases ht
  exact systemPart_setReg8 s .al v

theorem lodswBody_system (h : lodswBody s = .ok t) : systemPart t = systemPart s := by
  obtain ⟨v, -, ht⟩ := bind_ok.1 h
  cases ht
  rfl

/-- RET pops into IP or ends the run; either way no more than SP and IP are written (R208). -/
theorem retBody_system {e : BodyEnd} (h : retBody s = .ok e) : systemPart (endState e) = systemPart s := by
  obtain ⟨⟨v, u⟩, hpop, he⟩ := bind_ok.1 h
  obtain ⟨-, rfl⟩ := pop16_ok.1 hpop
  by_cases hv : v = 0
  · simp only [hv, if_true] at he
    cases he
    rfl
  · simp only [hv, if_false] at he
    cases he
    rfl

theorem intBody_system {n : Byte} {e : BodyEnd} (h : intBody n s = .ok e) : systemPart (endState e) = systemPart s := by
  obtain ⟨out, rfl, -⟩ | ⟨rfl, -⟩ := intBody_ok h <;> rfl

/-! ### The bodies that store -/

theorem push16_system {v : Word} (h : push16 v s = .ok t) : StoreChange (systemPart s) (systemPart t) := by
  obtain ⟨m, hm, rfl⟩ := push16_ok.1 h
  exact ⟨m, segWrite16_wf hm, rfl⟩

theorem pushBody_system {r : Reg16} (h : pushBody r s = .ok t) : StoreChange (systemPart s) (systemPart t) := by
  obtain ⟨m, hm, ht⟩ := bind_ok.1 h
  cases ht
  exact ⟨m, segWrite16_wf hm, rfl⟩

theorem callBody_system {d : Word} (h : callBody d s = .ok t) : StoreChange (systemPart s) (systemPart t) := by
  obtain ⟨u, hu, ht⟩ := bind_ok.1 h
  cases ht
  have pushed := push16_system hu
  exact pushed

/-- PUSHA is eight pushes (R184). -/
theorem pushaBody_system (h : pushaBody s = .ok t) : StoreChange (systemPart s) (systemPart t) := by
  obtain ⟨s1, h1, h⟩ := bind_ok.1 h
  obtain ⟨s2, h2, h⟩ := bind_ok.1 h
  obtain ⟨s3, h3, h⟩ := bind_ok.1 h
  obtain ⟨s4, h4, h⟩ := bind_ok.1 h
  obtain ⟨s5, h5, h⟩ := bind_ok.1 h
  obtain ⟨s6, h6, h⟩ := bind_ok.1 h
  obtain ⟨s7, h7, h8⟩ := bind_ok.1 h
  have first4 := ((push16_system h1).trans (push16_system h2)).trans ((push16_system h3).trans (push16_system h4))
  have last4 := ((push16_system h5).trans (push16_system h6)).trans ((push16_system h7).trans (push16_system h8))
  exact first4.trans last4

theorem movsbBody_system (h : movsbBody s = .ok t) : StoreChange (systemPart s) (systemPart t) := by
  obtain ⟨v, -, h⟩ := bind_ok.1 h
  obtain ⟨m, hm, ht⟩ := bind_ok.1 h
  cases ht
  exact ⟨m, segWrite8_wf hm, rfl⟩

theorem movswBody_system (h : movswBody s = .ok t) : StoreChange (systemPart s) (systemPart t) := by
  obtain ⟨v, -, h⟩ := bind_ok.1 h
  obtain ⟨m, hm, ht⟩ := bind_ok.1 h
  cases ht
  exact ⟨m, segWrite16_wf hm, rfl⟩

theorem stosbBody_system (h : stosbBody s = .ok t) : StoreChange (systemPart s) (systemPart t) := by
  obtain ⟨m, hm, ht⟩ := bind_ok.1 h
  cases ht
  exact ⟨m, segWrite8_wf hm, rfl⟩

theorem stoswBody_system (h : stoswBody s = .ok t) : StoreChange (systemPart s) (systemPart t) := by
  obtain ⟨m, hm, ht⟩ := bind_ok.1 h
  cases ht
  exact ⟨m, segWrite16_wf hm, rfl⟩

/-- POPF writes FLAGS and SP (R186). -/
theorem popfBody_system (h : popfBody s = .ok t) : ∃ f, systemPart t = { systemPart s with control := f } := by
  obtain ⟨⟨v, u⟩, hpop, ht⟩ := bind_ok.1 h
  obtain ⟨-, rfl⟩ := pop16_ok.1 hpop
  cases ht
  exact ⟨_, rfl⟩

end

/-! ### From the body to the instruction -/

section
variable {R : SystemPart → SystemPart → Prop} {len : Nat} {s t : State}

theorem cycleOrExit_system {body : State → Except Fatal BodyEnd}
    (hb : ∀ u e, body u = .ok e → R (systemPart u) (systemPart (endState e)))
    (h : cycleOrExit len body s = .next t) : R (systemPart s) (systemPart t) := by
  obtain ⟨u, hu, rfl⟩ | ⟨st, u, hu, rfl⟩ := cycleOrExit_next h <;> exact hb _ _ hu

theorem cycle_system {body : State → Except Fatal State}
    (hb : ∀ u v, body u = .ok v → R (systemPart u) (systemPart v))
    (h : cycle len body s = .next t) : R (systemPart s) (systemPart t) := by
  obtain ⟨u, hu, rfl⟩ := cycle_next.1 h
  simpa using hb _ _ hu

theorem cyclePure_system {body : State → State} (hb : ∀ u, systemPart (body u) = systemPart u)
    (h : cyclePure len body s = .next t) : systemPart t = systemPart s := by
  cases h
  exact hb (s.advanceIp (len - 1))

end

/-- What executing an instruction changes of the system part. -/
theorem exec_system {i : Instr} {s t : State} (h : exec i s = .next t) :
    SystemChange i (systemPart s) (systemPart t) := by
  cases i with
  | addRm8R8 | addR8Rm8 | addAlImm8 => exact .of_eq (cyclePure_system (fun u => addBody_system u _ _) h)
  | adcRm8R8 | adcR8Rm8 | adcAlImm8 => exact .of_eq (cyclePure_system (fun u => adcBody_system u _ _) h)
  | subRm8R8 | subR8Rm8 | subAlImm8 => exact .of_eq (cyclePure_system (fun u => subBody_system u _ _) h)
  | cmpRm8R8 | cmpR8Rm8 | cmpAlImm8 => exact .of_eq (cyclePure_system (fun u => cmpBody_system u _ _) h)
  | orRm8R8 | orR8Rm8 | orAlImm8 | andRm8R8 | andR8Rm8 | andAlImm8 | xorRm8R8 | xorR8Rm8 | xorAlImm8 =>
    exact .of_eq (cyclePure_system (fun u => logicBody_system u _ _ _) h)
  | daa => exact .of_eq (cyclePure_system daaBody_system h)
  | decR16 => exact .of_eq (cyclePure_system (fun u => decBody_system u _) h)
  | rclRm16Cl => exact .of_eq (cyclePure_system (fun u => rclBody_system u _) h)
  | incRm8 => exact .of_eq (cyclePure_system (fun u => incBody_system u _) h)
  | movRm8R8 | movR8Rm8 | movR8Imm8 => exact .of_eq (cyclePure_system (fun u => mov8Body_system u _ _) h)
  | movRm16R16 | movR16Rm16 | movRm16Cs | movRm16Ds | movR16Imm16 =>
    exact .of_eq (cyclePure_system (fun u => mov16Body_system u _ _) h)
  | jbRel8 | jzRel8 | jnzRel8 | jbeRel8 | jmpRel8 =>
    exact .of_eq (cyclePure_system (fun u => jumpIf_system u _ _) h)
  | loopRel8 => exact .of_eq (cyclePure_system (fun u => loopBody_system u _) h)
  | popR16 => exact cycle_system (fun _ _ hb => .of_eq (popBody_system hb)) h
  | lodsb => exact cycle_system (fun _ _ hb => .of_eq (lodsbBody_system hb)) h
  | lodsw => exact cycle_system (fun _ _ hb => .of_eq (lodswBody_system hb)) h
  | ret => exact cycleOrExit_system (fun _ _ hb => .of_eq (retBody_system hb)) h
  | intImm8 => exact cycleOrExit_system (fun _ _ hb => .of_eq (intBody_system hb)) h
  | movCsRm16 rm =>
    cases h
    exact .cs rm (systemPart s) _
  | movDsRm16 rm =>
    cases h
    exact .ds rm (systemPart s) _
  | popf =>
    refine cycle_system (fun u v hb => ?_) h
    obtain ⟨f, hf⟩ := popfBody_system hb
    exact hf ▸ .control _ f
  | pushR16 => exact cycle_system (fun _ _ hb => .store trivial (pushBody_system hb)) h
  | pusha => exact cycle_system (fun _ _ hb => .store trivial (pushaBody_system hb)) h
  | pushf => exact cycle_system (fun _ _ hb => .store trivial (push16_system hb)) h
  | callRel16 => exact cycle_system (fun _ _ hb => .store trivial (callBody_system hb)) h
  | movsb => exact cycle_system (fun _ _ hb => .store trivial (movsbBody_system hb)) h
  | movsw => exact cycle_system (fun _ _ hb => .store trivial (movswBody_system hb)) h
  | stosb => exact cycle_system (fun _ _ hb => .store trivial (stosbBody_system hb)) h
  | stosw => exact cycle_system (fun _ _ hb => .store trivial (stoswBody_system hb)) h

/-! ### The statements -/

/-- Settles O14: a step ends the run or executes one instruction, and an instruction changes memory only by stores to
addresses that exist. -/
theorem memoryStaysCanonical : Obligations.MemoryStaysCanonical := by
  intro s t hs h
  obtain rfl | ⟨i, hi⟩ := step_next h
  · exact hs
  · exact (exec_system hi).mem_wf hs

/-- Settles O51: no instruction changes them, and the end at the budget changes RUN alone. -/
theorem stackAndExtraSegmentsFixed : Obligations.StackAndExtraSegmentsFixed := by
  intro s t h
  obtain rfl | ⟨i, hi⟩ := step_next h
  · exact ⟨rfl, rfl, rfl⟩
  · exact (exec_system hi).fixed

/-- Settles O52: among the changes an instruction can make, those of CS and DS belong to one instruction each. -/
theorem segmentWriters : Obligations.SegmentWriters := by
  intro i s t h
  have change := exec_system h
  exact ⟨change.cs_writer.resolve_left, change.ds_writer.resolve_left⟩

/-- Settles O53: `controlFlags` holds exactly the bits outside the six status flags. -/
theorem controlFlagWriters : Obligations.ControlFlagWriters := by
  intro i s t h hi k hk
  have kept : controlFlags t.flags = controlFlags s.flags := (exec_system h).control_writer.resolve_right hi
  rw [← controlFlags_bit t hk, kept, controlFlags_bit s hk]

end Sys2Proof.Proofs
end

section
/-! PROOFS. What no instruction reads: the output stream (10_state.md R39), TICKS (R36), and TF and IF (R32). One update
stands for the three, `disguise`, and every meaning answers the same under it, disguised. -/

namespace Sys2Proof.Proofs

open Sys2Proof Sys2Proof.Machine Sys2Proof.Claims

/-! ### The update -/

/-- How a state is changed where no instruction reads it. -/
structure Disguise where
  /-- The bytes put before the output. -/
  before : List Byte
  /-- How much is added to TICKS. -/
  later : Nat
  /-- What TF becomes. -/
  tf : Bool → Bool
  /-- What IF becomes. -/
  intf : Bool → Bool

/-- FLAGS under a disguise. -/
def Disguise.flags (u : Disguise) (f : Flags) : Flags := { f with tf := u.tf f.tf, intf := u.intf f.intf }

/-- The state under a disguise. -/
def disguise (u : Disguise) (s : State) : State :=
  { s with output := u.before ++ s.output, ticks := s.ticks + u.later, flags := u.flags s.flags }

/-- A body's end under a disguise. -/
def disguiseEnd (u : Disguise) : BodyEnd → BodyEnd
  | .returned s => .returned (disguise u s)
  | .terminated st s => .terminated st (disguise u s)

/-- TF and IF stay as they are. -/
def Disguise.KeepsFlags (u : Disguise) : Prop := ∀ f, u.flags f = f

section
variable (u : Disguise) (s : State)

/-! ### Reads do not see a disguise -/

@[simp] theorem ip_disguise : (disguise u s).ip = s.ip := rfl
@[simp] theorem cs_disguise : (disguise u s).cs = s.cs := rfl
@[simp] theorem mem_disguise : (disguise u s).mem = s.mem := rfl
@[simp] theorem run_disguise : (disguise u s).run = s.run := rfl
@[simp] theorem params_disguise : (disguise u s).params = s.params := rfl
@[simp] theorem reg16_disguise (r : Reg16) : (disguise u s).reg16 r = s.reg16 r := rfl
@[simp] theorem reg8_disguise (r : Reg8) : (disguise u s).reg8 r = s.reg8 r := rfl
@[simp] theorem read8_disguise (x : Source8) : (disguise u s).read8 x = s.read8 x := rfl
@[simp] theorem drawn_disguise (k : Nat) : (disguise u s).drawn k = s.drawn k := rfl
@[simp] theorem flag_cf_disguise : (disguise u s).flag .cf = s.flag .cf := rfl

/-! ### Updates go through a disguise -/

@[simp] theorem disguise_advanceIp (n : Nat) : (disguise u s).advanceIp n = disguise u (s.advanceIp n) := rfl
@[simp] theorem disguise_drew (n : Nat) : (disguise u s).drew n = disguise u (s.drew n) := rfl
@[simp] theorem disguise_setStatus (x : StatusFlags) :
    (disguise u s).setStatus x = disguise u (s.setStatus x) := rfl
@[simp] theorem disguise_setCarryOverflow (c o : Bool) :
    (disguise u s).setCarryOverflow c o = disguise u (s.setCarryOverflow c o) := rfl
@[simp] theorem disguise_setReg16 (r : Reg16) (v : Word) :
    (disguise u s).setReg16 r v = disguise u (s.setReg16 r v) := by cases r <;> rfl
@[simp] theorem disguise_setReg8 (r : Reg8) (v : Byte) :
    (disguise u s).setReg8 r v = disguise u (s.setReg8 r v) := by cases r <;> rfl
@[simp] theorem disguise_setSreg (r : SReg) (v : Word) :
    (disguise u s).setSreg r v = disguise u (s.setSreg r v) := by cases r <;> rfl

theorem disguise_endCycle : (disguise u s).endCycle = disguise u s.endCycle := by
  simp [disguise, State.endCycle, Nat.add_right_comm]

/-! ### Bodies that always return -/

theorem addBody_disguise (d : Reg8) (x : Source8) : addBody d x (disguise u s) = disguise u (addBody d x s) := by
  simp [addBody]

theorem adcBody_disguise (d : Reg8) (x : Source8) : adcBody d x (disguise u s) = disguise u (adcBody d x s) := by
  simp [adcBody]

theorem subBody_disguise (d : Reg8) (x : Source8) : subBody d x (disguise u s) = disguise u (subBody d x s) := by
  simp [subBody]

theorem cmpBody_disguise (d : Reg8) (x : Source8) : cmpBody d x (disguise u s) = disguise u (cmpBody d x s) := by
  simp [cmpBody]

theorem logicBody_disguise (f : Byte → Byte → Byte) (d : Reg8) (x : Source8) :
    logicBody f d x (disguise u s) = disguise u (logicBody f d x s) := by simp [logicBody]

theorem daaBody_disguise : daaBody (disguise u s) = disguise u (daaBody s) := rfl

theorem rclBody_disguise (d : Reg16) : rclBody d (disguise u s) = disguise u (rclBody d s) := by simp [rclBody]

theorem decBody_disguise (d : Reg16) : decBody d (disguise u s) = disguise u (decBody d s) := by simp [decBody]

theorem incBody_disguise (d : Reg8) : incBody d (disguise u s) = disguise u (incBody d s) := by simp [incBody]

theorem mov8Body_disguise (d : Reg8) (x : Source8) : mov8Body d x (disguise u s) = disguise u (mov8Body d x s) := by
  simp [mov8Body]

/-- A word move reads a register, a segment register or an immediate, never FLAGS (R241 to R247). -/
theorem mov16Body_disguise (d : Reg16) {x : Source16} (hx : x ≠ .flags) :
    mov16Body d x (disguise u s) = disguise u (mov16Body d x s) := by
  cases x with
  | flags => exact absurd rfl hx
  | reg | seg | imm => exact disguise_setReg16 u s d _

theorem movSregBody_disguise (d : SReg) (r : Reg16) :
    movSregBody d (.reg r) (disguise u s) = disguise u (movSregBody d (.reg r) s) :=
  disguise_setSreg u s d _

theorem jumpIf_disguise (c : Bool) (d : Byte) : jumpIf c d (disguise u s) = disguise u (jumpIf c d s) := by
  cases c <;> rfl

theorem loopBody_disguise (d : Byte) : loopBody d (disguise u s) = disguise u (loopBody d s) :=
  jumpIf_disguise u { s with cx := s.cx - 1 } _ d

end

/-! ### Bodies that may raise -/

section
variable {α β γ : Type}

/-- A computation that reads nothing disguised, followed by continuations that answer alike. -/
theorem bind_alike {x : Except Fatal α} {f : α → Except Fatal β} {d : β → γ} {k : α → Except Fatal γ}
    (h : ∀ a, k a = (f a).map d) : (x >>= k) = (x >>= f).map d := by
  cases x with
  | error c => rfl
  | ok a => exact h a

/-- A computation that answers disguised, followed by continuations that answer alike. -/
theorem map_bind_alike {x y : Except Fatal α} {f : α → Except Fatal β} {k : α → Except Fatal γ}
    {e : α → α} {d : β → γ} (hy : y = x.map e) (h : ∀ a, k (e a) = (f a).map d) :
    (y >>= k) = (x >>= f).map d := by
  subst hy
  cases x with
  | error c => rfl
  | ok a => exact h a

end

section
variable (u : Disguise) (s : State)

theorem push16_disguise (v : Word) : push16 v (disguise u s) = (push16 v s).map (disguise u) := by
  show (segWrite16 s.mem s.ss (s.sp - 2) v).map _ = ((segWrite16 s.mem s.ss (s.sp - 2) v).map _).map _
  cases segWrite16 s.mem s.ss (s.sp - 2) v <;> rfl

theorem pop16_disguise : pop16 (disguise u s) = (pop16 s).map (Prod.map id (disguise u)) := by
  show (segRead16 s.mem s.ss s.sp).map _ = ((segRead16 s.mem s.ss s.sp).map _).map _
  cases segRead16 s.mem s.ss s.sp <;> rfl

theorem pushBody_disguise (r : Reg16) : pushBody r (disguise u s) = (pushBody r s).map (disguise u) :=
  bind_alike fun _ => rfl

theorem popBody_disguise (r : Reg16) : popBody r (disguise u s) = (popBody r s).map (disguise u) :=
  bind_alike fun v => by rw [disguise_setReg16]; rfl

theorem pushaBody_disguise : pushaBody (disguise u s) = (pushaBody s).map (disguise u) :=
  map_bind_alike (push16_disguise u s _) fun s1 => map_bind_alike (push16_disguise u s1 _) fun s2 =>
  map_bind_alike (push16_disguise u s2 _) fun s3 => map_bind_alike (push16_disguise u s3 _) fun s4 =>
  map_bind_alike (push16_disguise u s4 _) fun s5 => map_bind_alike (push16_disguise u s5 _) fun s6 =>
  map_bind_alike (push16_disguise u s6 _) fun s7 => push16_disguise u s7 _

theorem callBody_disguise (d : Word) : callBody d (disguise u s) = (callBody d s).map (disguise u) :=
  map_bind_alike (push16_disguise u s _) fun _ => rfl

theorem movsbBody_disguise : movsbBody (disguise u s) = (movsbBody s).map (disguise u) :=
  bind_alike fun _ => bind_alike fun _ => rfl

theorem movswBody_disguise : movswBody (disguise u s) = (movswBody s).map (disguise u) :=
  bind_alike fun _ => bind_alike fun _ => rfl

theorem lodsbBody_disguise : lodsbBody (disguise u s) = (lodsbBody s).map (disguise u) := bind_alike fun _ => rfl

theorem lodswBody_disguise : lodswBody (disguise u s) = (lodswBody s).map (disguise u) := bind_alike fun _ => rfl

theorem stosbBody_disguise : stosbBody (disguise u s) = (stosbBody s).map (disguise u) := bind_alike fun _ => rfl

theorem stoswBody_disguise : stoswBody (disguise u s) = (stoswBody s).map (disguise u) := bind_alike fun _ => rfl

theorem retBody_disguise : retBody (disguise u s) = (retBody s).map (disguiseEnd u) :=
  map_bind_alike (pop16_disguise u s) fun (v, t) => by
    by_cases hv : v = 0
    · subst hv
      rfl
    · simp only [Prod.map, id, hv, if_false]
      rfl

/-- The BIOS collaborator reads registers, memory and the launch parameters (R221 to R226). -/
theorem bios_disguise (n f : Byte) : bios n f (disguise u s) = bios n f s := rfl

theorem intBody_disguise (n : Byte) : intBody n (disguise u s) = (intBody n s).map (disguiseEnd u) := by
  unfold intBody
  rw [reg8_disguise, bios_disguise]
  cases bios n (s.reg8 .ah) s with
  | error c => rfl
  | ok answer =>
    cases answer with
    | continues out => simp [disguise, disguiseEnd, Except.map]
    | terminates st => rfl
    | unsupported code => rfl

/-- PUSHF stores TF and IF, POPF writes them: the two see a disguise of FLAGS (R32). -/
theorem pushfBody_disguise (hu : u.KeepsFlags) : pushfBody (disguise u s) = (pushfBody s).map (disguise u) := by
  have same : (disguise u s).read16 .flags = s.read16 .flags := congrArg Flags.toWord (hu s.flags)
  unfold pushfBody
  rw [same, push16_disguise]

theorem popfBody_disguise (hu : u.KeepsFlags) : popfBody (disguise u s) = (popfBody s).map (disguise u) :=
  map_bind_alike (pop16_disguise u s) fun (v, t) => by
    show Except.ok _ = Except.ok _
    simp [disguise, hu _]

end

/-! ### From the body to the instruction -/

section
variable {u : Disguise} {len : Nat} (s : State)

theorem cycleOrExit_disguise {body : State → Except Fatal BodyEnd}
    (hb : ∀ t, body (disguise u t) = (body t).map (disguiseEnd u)) :
    cycleOrExit len body (disguise u s) = mapNext (disguise u) (cycleOrExit len body s) := by
  unfold cycleOrExit
  rw [disguise_advanceIp, hb]
  cases body (s.advanceIp (len - 1)) with
  | error c => rfl
  | ok e =>
    cases e with
    | returned t => exact congrArg _ (disguise_endCycle u t)
    | terminated st t => rfl

theorem cycle_disguise {body : State → Except Fatal State}
    (hb : ∀ t, body (disguise u t) = (body t).map (disguise u)) :
    cycle len body (disguise u s) = mapNext (disguise u) (cycle len body s) := by
  refine cycleOrExit_disguise s fun t => ?_
  rw [hb]
  cases body t <;> rfl

theorem cyclePure_disguise {body : State → State} (hb : ∀ t, body (disguise u t) = disguise u (body t)) :
    cyclePure len body (disguise u s) = mapNext (disguise u) (cyclePure len body s) :=
  cycle_disguise s fun t => congrArg Except.ok (hb t)

end

/-- Every instruction does the same under a disguise; PUSHF and POPF where it keeps FLAGS. -/
theorem exec_disguise (u : Disguise) (i : Instr) (s : State) (hu : u.KeepsFlags ∨ i ≠ .pushf ∧ i ≠ .popf) :
    exec i (disguise u s) = mapNext (disguise u) (exec i s) := by
  cases i with
  | addRm8R8 | addR8Rm8 | addAlImm8 => exact cyclePure_disguise s fun t => addBody_disguise u t _ _
  | adcRm8R8 | adcR8Rm8 | adcAlImm8 => exact cyclePure_disguise s fun t => adcBody_disguise u t _ _
  | subRm8R8 | subR8Rm8 | subAlImm8 => exact cyclePure_disguise s fun t => subBody_disguise u t _ _
  | cmpRm8R8 | cmpR8Rm8 | cmpAlImm8 => exact cyclePure_disguise s fun t => cmpBody_disguise u t _ _
  | orRm8R8 | orR8Rm8 | orAlImm8 | andRm8R8 | andR8Rm8 | andAlImm8 | xorRm8R8 | xorR8Rm8 | xorAlImm8 =>
    exact cyclePure_disguise s fun t => logicBody_disguise u t _ _ _
  | daa => exact cyclePure_disguise s (daaBody_disguise u)
  | decR16 => exact cyclePure_disguise s fun t => decBody_disguise u t _
  | rclRm16Cl => exact cyclePure_disguise s fun t => rclBody_disguise u t _
  | incRm8 => exact cyclePure_disguise s fun t => incBody_disguise u t _
  | movRm8R8 | movR8Rm8 | movR8Imm8 => exact cyclePure_disguise s fun t => mov8Body_disguise u t _ _
  | movRm16R16 | movR16Rm16 | movRm16Cs | movRm16Ds | movR16Imm16 =>
    exact cyclePure_disguise s fun t => mov16Body_disguise u t _ nofun
  | movCsRm16 | movDsRm16 => exact cyclePure_disguise s fun t => movSregBody_disguise u t _ _
  | jbRel8 | jzRel8 | jnzRel8 | jbeRel8 | jmpRel8 => exact cyclePure_disguise s fun t => jumpIf_disguise u t _ _
  | loopRel8 => exact cyclePure_disguise s fun t => loopBody_disguise u t _
  | pushR16 => exact cycle_disguise s fun t => pushBody_disguise u t _
  | popR16 => exact cycle_disguise s fun t => popBody_disguise u t _
  | pusha => exact cycle_disguise s (pushaBody_disguise u)
  | callRel16 => exact cycle_disguise s fun t => callBody_disguise u t _
  | movsb => exact cycle_disguise s (movsbBody_disguise u)
  | movsw => exact cycle_disguise s (movswBody_disguise u)
  | lodsb => exact cycle_disguise s (lodsbBody_disguise u)
  | lodsw => exact cycle_disguise s (lodswBody_disguise u)
  | stosb => exact cycle_disguise s (stosbBody_disguise u)
  | stosw => exact cycle_disguise s (stoswBody_disguise u)
  | ret => exact cycleOrExit_disguise s (retBody_disguise u)
  | intImm8 => exact cycleOrExit_disguise s fun t => intBody_disguise u t _
  | pushf => exact cycle_disguise s fun t => pushfBody_disguise u t (hu.resolve_right fun h => h.1 rfl)
  | popf => exact cycle_disguise s fun t => popfBody_disguise u t (hu.resolve_right fun h => h.2 rfl)

/-! ### The fetch and the step -/

/-- No operand byte follows offset 0xFFFF (R56). -/
theorem consumeByte_at_end {s : State} (h : s.ip = 0xFFFF) :
    consumeByte s = .error (.offsetWrap s.cs s.ip.toNat) := if_pos h

/-- Below offset 0xFFFF an operand byte is the byte at IP + 1 (R89). -/
theorem consumeByte_before_end {s : State} (h : s.ip ≠ 0xFFFF) :
    consumeByte s = (memRead8 s.mem (lin s.cs (s.ip + 1))).map fun b => (b, s.advanceIp 1) := if_neg h

theorem consumeByte_disguise (u : Disguise) (s : State) :
    consumeByte (disguise u s) = (consumeByte s).map (Prod.map id (disguise u)) := by
  by_cases hip : s.ip = 0xFFFF
  · rw [consumeByte_at_end hip, consumeByte_at_end (s := disguise u s) hip]
    rfl
  · rw [consumeByte_before_end hip, consumeByte_before_end (s := disguise u s) hip]
    simp only [ip_disguise, cs_disguise, mem_disguise]
    cases memRead8 s.mem (lin s.cs (s.ip + 1)) <;> rfl

theorem consumeBytes_disguise (u : Disguise) (n : Nat) (s : State) :
    consumeBytes n (disguise u s) = (consumeBytes n s).map (Prod.map id (disguise u)) := by
  induction n generalizing s with
  | zero => rfl
  | succ n ih =>
    simp only [consumeBytes, consumeByte_disguise]
    cases consumeByte s with
    | error c => rfl
    | ok bt =>
      simp only [Except.map, Prod.map, ih]
      cases consumeBytes n bt.2 <;> rfl

/-- The fetch reads CS, IP and memory (R100 to R102). -/
theorem fetch_disguise (u : Disguise) (s : State) : fetch (disguise u s) = fetch s := by
  simp only [fetch, ip_disguise, cs_disguise, mem_disguise, consumeBytes_disguise]
  cases memRead8 s.mem (lin s.cs s.ip) with
  | error c => rfl
  | ok opc =>
    dsimp only
    cases consumeBytes (operandBytes opc) s <;> rfl

/-- A step does the same under a disguise that keeps TICKS, which the budget check reads (R99), and FLAGS. -/
theorem step_disguise (u : Disguise) (s : State) (hu : u.KeepsFlags) (hticks : u.later = 0) :
    step (disguise u s) = mapNext (disguise u) (step s) := by
  have sameTicks : (disguise u s).ticks = s.ticks := by simp [disguise, hticks]
  simp only [step, run_disguise, params_disguise, sameTicks, fetch_disguise]
  cases s.run with
  | halted o => rfl
  | running =>
    by_cases hbudget : s.ticks > s.params.tickBudget
    · simp only [hbudget, if_true]
      rfl
    · simp only [hbudget, if_false]
      cases fetch s with
      | error code => rfl
      | ok i => exact exec_disguise u i s (.inl hu)

/-! ### The statements -/

/-- Settles O57: the disguise that puts bytes before the output. -/
theorem outputNeverRead : Obligations.OutputNeverRead :=
  fun s pre => step_disguise ⟨pre, 0, id, id⟩ s (fun _ => rfl) rfl

/-- Settles O58: the disguise that adds to TICKS. -/
theorem ticksNeverRead : Obligations.TicksNeverRead :=
  fun i s k => exec_disguise ⟨[], k, id, id⟩ i s (.inl fun _ => rfl)

/-- Settles O59: the disguise that sets TF and IF. -/
theorem trapAndInterruptFlagsInert : Obligations.TrapAndInterruptFlagsInert :=
  fun i s x y hpushf hpopf => exec_disguise ⟨[], 0, fun _ => x, fun _ => y⟩ i s (.inr ⟨hpushf, hpopf⟩)

end Sys2Proof.Proofs
end

section
/-! PROOFS. The register fields (10_state.md R23), the byte halves of the general registers (R22) and the positions of the
flags (R29). -/

namespace Sys2Proof.Proofs

open Sys2Proof Sys2Proof.Machine Sys2Proof.Claims

/-! ### Fields -/

/-- The two spellings of a register-direct ModR/M byte, by numbers and by bit fields (R81, R83). -/
theorem direct_eq_modrmByte (reg rm : BitVec 3) : direct reg rm = modrmByte reg rm := by
  revert reg rm
  decide

/-- A register-direct byte under a segment format is CS for field 1, DS for field 3 and a field error otherwise (R85). -/
theorem decodeModrm_sreg (cs ds : BitVec 3 → Instr) (reg rm : BitVec 3) :
    decodeModrm (.sreg cs ds) (modrmByte reg rm) =
      if reg = 1 then .ok (cs rm) else if reg = 3 then .ok (ds rm) else .error (.field (modrmByte reg rm)) := by
  simp [decodeModrm]

/-- An instruction of a segment format is its opcode byte and one register-direct byte (R85). -/
theorem decode_sreg {opc : Byte} {cs ds : BitVec 3 → Instr} (hopc : lookup opc = some (.sreg cs ds))
    (reg rm : BitVec 3) :
    decode [opc, direct reg rm] =
      if reg = 1 then .ok (cs rm, []) else if reg = 3 then .ok (ds rm, []) else .error (.field (direct reg rm)) := by
  simp only [decode, hopc, decodeOperands, direct_eq_modrmByte, decodeModrm_sreg]
  split
  · rfl
  · split <;> rfl

/-- The row of 8C (R91). -/
theorem lookup_movFromSegment : lookup 0x8C =
    some (.sreg (fun rm => .movRm16Cs (Reg16.ofField rm)) fun rm => .movRm16Ds (Reg16.ofField rm)) := rfl

/-- The row of 8E (R91). -/
theorem lookup_movToSegment : lookup 0x8E =
    some (.sreg (fun rm => .movCsRm16 (Reg16.ofField rm)) fun rm => .movDsRm16 (Reg16.ofField rm)) := rfl

/-- Settles O6: the rows of 8C and 8E are segment formats, where only the fields 1 and 3 map. -/
theorem fieldNumbering : Obligations.FieldNumbering :=
  ⟨by decide, by decide, fun f => ⟨decode_sreg lookup_movFromSegment f 0, decode_sreg lookup_movToSegment f 0⟩⟩

/-! ### Byte halves -/

/-- `h` and `l` are the high and the low half of `g` (R21). -/
structure Halves (g : Reg16) (h l : Reg8) : Prop where
  parent_high : Reg8.parent h = g
  parent_low : Reg8.parent l = g
  isHigh_high : Reg8.isHigh h = true
  isHigh_low : Reg8.isHigh l = false

section
variable {g : Reg16} {h l : Reg8} (hhl : Halves g h l) (s : State)
include hhl

theorem Halves.reg8_high : s.reg8 h = highByte (s.reg16 g) := by
  simp [State.reg8, hhl.isHigh_high, hhl.parent_high]

theorem Halves.reg8_low : s.reg8 l = lowByte (s.reg16 g) := by
  simp [State.reg8, hhl.isHigh_low, hhl.parent_low]

theorem Halves.low_ne_high : l ≠ h := by
  rintro rfl
  exact Bool.noConfusion (hhl.isHigh_high.symm.trans hhl.isHigh_low)

/-- The word is its high half times 256 plus its low half (R22). -/
theorem Halves.reg16_toNat : (s.reg16 g).toNat = (s.reg8 h).toNat * 256 + (s.reg8 l).toNat := by
  rw [hhl.reg8_high, hhl.reg8_low, highByte_toNat, lowByte_toNat]
  omega

end

/-- The four general registers and their halves (R21). -/
theorem halves_of_mem : ∀ g ∈ [(Reg16.ax, Reg8.ah, Reg8.al), (.cx, .ch, .cl), (.dx, .dh, .dl), (.bx, .bh, .bl)],
    Halves g.1 g.2.1 g.2.2 := by
  intro g hg
  simp only [List.mem_cons, List.not_mem_nil, or_false] at hg
  obtain rfl | rfl | rfl | rfl := hg <;> exact ⟨rfl, rfl, rfl, rfl⟩

/-- Settles O31: a word is its two halves, and a byte write is seen by a read of the same half alone. -/
theorem byteHalvesAlias : Obligations.ByteHalvesAlias := by
  intro s h l v g hg
  have halves := halves_of_mem g hg
  have lowNeHigh := halves.low_ne_high
  refine ⟨halves.reg16_toNat s, ?both, ?_, ?_, ?_, ?_, ?high, ?low⟩
  case both =>
    rw [halves.reg16_toNat, State.reg8_setReg8_self, State.reg8_setReg8, if_neg lowNeHigh.symm,
      State.reg8_setReg8_self]
  case high => rw [halves.reg8_high, State.reg16_setReg16_self, highByte_toNat]
  case low => rw [halves.reg8_low, State.reg16_setReg16_self, lowByte_toNat]
  · exact State.reg8_setReg8_self s _ h
  · rw [State.reg8_setReg8, if_neg lowNeHigh]
  · exact State.reg8_setReg8_self s _ l
  · rw [State.reg8_setReg8, if_neg lowNeHigh.symm]

/-! ### Flags -/

/-- Settles O41: reading the word back as FLAGS gives each flag from its bit. -/
theorem flagPositions : Obligations.FlagPositions := by
  intro s
  have back := Flags.ofWord_toWord s.flags
  exact ⟨congrArg Flags.cf back, congrArg Flags.pf back, congrArg Flags.af back, congrArg Flags.zf back,
    congrArg Flags.sf back, congrArg Flags.tf back, congrArg Flags.intf back, congrArg Flags.df back,
    congrArg Flags.of back⟩

end Sys2Proof.Proofs
end

section
/-! PROOFS. Linear addresses (20_memory.md R51), word accesses (R53 to R55), the instructions that store (R58), and the
faults of fetching an instruction (R52, R56, 60_exceptions.md R264). -/

namespace Sys2Proof.Proofs

open Sys2Proof Sys2Proof.Machine Sys2Proof.Claims

/-! ### Linear addresses -/

/-- Settles O12: both words are at most 0xFFFF. -/
theorem linearAddress : Obligations.LinearAddress := by
  refine ⟨fun s o => ⟨rfl, ?_⟩, by decide, by decide⟩
  have hs := s.isLt
  have ho := o.isLt
  unfold lin
  omega

/-- Below offset 0xFFFF the next offset is the next linear address. -/
theorem lin_succ (s : Word) {o : Word} (ho : o ≠ 0xFFFF) : lin s (o + 1) = lin s o + 1 := by
  have next : (o + 1).toNat = o.toNat + 1 := by bv_omega
  rw [lin, lin, next, Nat.add_assoc]

/-! ### Word accesses -/

/-- The checks of a word access, in order, are those of `wordFault` (R54, R55). -/
theorem wordChecks_eq {α : Type} (s o : Word) (x : α) :
    (if o = 0xFFFF then .error (.offsetWrap s o.toNat)
      else if lin s o ≥ Config.memSize then .error (.addressRange (lin s o))
      else if lin s o + 1 ≥ Config.memSize then .error (.addressRange (lin s o + 1))
      else .ok x : Except Fatal α) = (wordFault s o).elim (.ok x) .error := by
  unfold wordFault
  by_cases ho : o = 0xFFFF
  · subst ho; rfl
  · have offset : o.toNat ≠ 0xFFFF := by bv_omega
    rw [if_neg ho, if_neg offset]
    split
    · rfl
    · split <;> rfl

/-- A word load raises the fault of its access, or else answers the two bytes, low byte first (R53). -/
theorem segRead16_eq (m : Memory) (s o : Word) :
    segRead16 m s o = (wordFault s o).elim (.ok (wordOf (m.read (lin s o)) (m.read (lin s o + 1)))) .error :=
  wordChecks_eq s o _

/-- A word store raises the fault of its access, or else writes the two bytes, low byte first (R53). -/
theorem segWrite16_eq (m : Memory) (s o v : Word) :
    segWrite16 m s o v =
      (wordFault s o).elim (.ok ((m.write (lin s o) (lowByte v)).write (lin s o + 1) (highByte v))) .error :=
  wordChecks_eq s o _

/-- Settles O13: the store and the load raise the fault of their one access, and without a fault every byte reads as
`read_segWrite16` says. -/
theorem wordStoreThenLoad : Obligations.WordStoreThenLoad := by
  intro m seg off v hm
  refine ⟨fun c hc => ?faults, fun hnone => ?stores⟩
  case faults =>
    rw [segWrite16_eq, segRead16_eq, hc]
    exact ⟨rfl, rfl⟩
  case stores =>
    obtain ⟨m', stored⟩ : ∃ m', segWrite16 m seg off v = .ok m' := ⟨_, by rw [segWrite16_eq, hnone]; rfl⟩
    have reads := read_segWrite16 stored hm
    have low : m'.read (lin seg off) = lowByte v := by simp [reads]
    have high : m'.read (lin seg off + 1) = highByte v := by simp [reads]
    refine ⟨m', stored, ?_, ?_, ?_, fun a hlow hhigh => ?_⟩
    · simp [segRead16_eq, hnone, low, high]
    · rw [low, lowByte_toNat]
    · rw [high, highByte_toNat]
    · rw [reads, if_neg hlow, if_neg hhigh]

/-! ### The instructions that store -/

/-- Of the changes an instruction can make, only a store changes memory. -/
theorem SystemChange.mem_writer {i : Instr} {a b : SystemPart} (h : SystemChange i a b) : b.mem = a.mem ∨ Stores i := by
  cases h with
  | none | cs | ds | control => exact .inl rfl
  | store hi hab => exact .inr hi

/-- Settles O54: an instruction that does not store leaves memory itself as it is. -/
theorem memoryWriters : Obligations.MemoryWriters := by
  intro i s t h hi a
  have kept : t.mem = s.mem := (exec_system h).mem_writer.resolve_right hi
  rw [kept]

/-! ### The faults of the fetch -/

/-- The lengths of R95 are those of the decode table's formats: the opcode byte and its operand bytes. -/
theorem lengthOf_eq_lookup (opc : Byte) : lengthOf opc = (lookup opc).map fun fmt => fmt.operandBytes + 1 := by
  revert opc
  decide

/-- The bytes without a length in R95 are the unassigned bytes of R92. -/
theorem lengthOf_eq_none (opc : Byte) : lengthOf opc = none ↔ Unassigned opc := by
  revert opc
  unfold Unassigned
  decide

/-- An unassigned byte has no row in the decode table. -/
theorem lookup_of_unassigned {opc : Byte} (h : Unassigned opc) : lookup opc = none := by
  have noLength := (lengthOf_eq_none opc).2 h
  rwa [lengthOf_eq_lookup, Option.map_eq_none_iff] at noLength

/-- After an opcode byte of length `n` the fetch consumes the other `n - 1` bytes (R95). -/
theorem operandBytes_of_lengthOf {opc : Byte} {n : Nat} (h : lengthOf opc = some n) : n = operandBytes opc + 1 := by
  rw [lengthOf_eq_lookup, Option.map_eq_some_iff] at h
  obtain ⟨fmt, hfmt, rfl⟩ := h
  rw [operandBytes, hfmt]

/-- A byte read beyond MEM_SIZE raises its address (R52). -/
theorem memRead8_beyond {m : Memory} {a : Nat} (h : a ≥ Config.memSize) : memRead8 m a = .error (.addressRange a) :=
  if_pos h

/-- An operand byte past offset 0xFFFF raises that offset (R56). -/
theorem consumeByte_wrap {s : State} (hip : s.ip = 0xFFFF) : consumeByte s = .error (.offsetWrap s.cs 0xFFFF) := by
  rw [consumeByte_at_end hip, hip]
  rfl

/-- An operand byte beyond MEM_SIZE raises its address (R52, R89). -/
theorem consumeByte_beyond {s : State} (hip : s.ip ≠ 0xFFFF) (h : lin s.cs s.ip + 1 ≥ Config.memSize) :
    consumeByte s = .error (.addressRange (lin s.cs s.ip + 1)) := by
  rw [consumeByte_before_end hip, lin_succ s.cs hip, memRead8_beyond h]
  rfl

/-- The first operand byte raises before any other is consumed. -/
theorem consumeBytes_first_error {n : Nat} {s : State} {c : Fatal} (h : consumeByte s = .error c) :
    consumeBytes (n + 1) s = .error c := by
  rw [consumeBytes, h]

/-- After a first operand byte that exists, the second one raises. -/
theorem consumeBytes_second_error {n : Nat} {s : State} {c : Fatal} (hip : s.ip ≠ 0xFFFF)
    (hfirst : lin s.cs s.ip + 1 < Config.memSize) (h : consumeByte (s.advanceIp 1) = .error c) :
    consumeBytes (n + 2) s = .error c := by
  have first := consumeByte_ok.2 ⟨hip, (lin_succ s.cs hip).symm ▸ hfirst, rfl, rfl⟩
  rw [consumeBytes, first]
  simp only [consumeBytes_first_error h]

section
variable {s : State}

/-- A fault of the fetch is the fault of the step, with the CS and IP of the instruction (R265). -/
theorem step_of_fetch_error {c : Fatal} (hs : CanFetch s) (h : fetch s = .error c) :
    step s = .fault (.fatal c s.cs s.ip) := by
  simp [step, hs.1, Nat.not_lt.2 hs.2, h, raiseFatal]

theorem fetch_beyond (h : lin s.cs s.ip ≥ Config.memSize) : fetch s = .error (.addressRange (lin s.cs s.ip)) := by
  rw [fetch, memRead8_beyond h]

section
variable (hopc : lin s.cs s.ip < Config.memSize)
include hopc

/-- An unassigned opcode byte is a fault before any operand byte is consumed (R101). -/
theorem fetch_unassigned (h : Unassigned (s.mem.read (lin s.cs s.ip))) :
    fetch s = .error (.unassignedOpcode (s.mem.read (lin s.cs s.ip))) := by
  have noRow := lookup_of_unassigned h
  rw [fetch, memRead8_ok.2 ⟨hopc, rfl⟩]
  simp [operandBytes, noRow, consumeBytes, decode, DecodeError.toFatal]

/-- A fault of consuming the operand bytes is the fault of the fetch. -/
theorem fetch_consume_error {n : Nat} {c : Fatal} (hn : lengthOf (s.mem.read (lin s.cs s.ip)) = some (n + 1))
    (h : consumeBytes n s = .error c) : fetch s = .error c := by
  obtain rfl := Nat.succ.inj (operandBytes_of_lengthOf hn)
  rw [fetch, memRead8_ok.2 ⟨hopc, rfl⟩]
  simp only [h]

end

end

/-- Settles O10: the opcode byte's address is checked first, then its row in the table, then each operand byte's offset and
address (R264). -/
theorem fetchFaults : Obligations.FetchFaults := by
  intro s hs
  refine ⟨fun h => step_of_fetch_error hs (fetch_beyond h), ?_⟩
  rintro opc hopc rfl
  have raises {n : Nat} {c : Fatal} (hn : lengthOf (s.mem.read (lin s.cs s.ip)) = some (n + 1))
      (h : consumeBytes n s = .error c) : step s = .fault (.fatal c s.cs s.ip) :=
    step_of_fetch_error hs (fetch_consume_error hopc hn h)
  refine ⟨fun h => step_of_fetch_error hs (fetch_unassigned hopc h), ?first_wrap, ?first_beyond, ?second_wrap,
    ?second_beyond⟩
  case first_wrap =>
    intro n hn h2 hip
    obtain ⟨k, rfl⟩ := Nat.exists_eq_add_of_le' h2
    exact raises hn (consumeBytes_first_error (consumeByte_wrap hip))
  case first_beyond =>
    intro n hn h2 hip hfirst
    obtain ⟨k, rfl⟩ := Nat.exists_eq_add_of_le' h2
    exact raises hn (consumeBytes_first_error (consumeByte_beyond hip hfirst))
  case second_wrap =>
    intro hn hip hfirst
    have atEnd : (s.advanceIp 1).ip = 0xFFFF := by simp [hip]
    exact raises hn (consumeBytes_second_error (by simp [hip]) hfirst (consumeByte_wrap atEnd))
  case second_beyond =>
    intro hn hip hip' hfirst hsecond
    have address : lin s.cs (s.advanceIp 1).ip = lin s.cs s.ip + 1 := lin_succ s.cs hip
    have beforeEnd : (s.advanceIp 1).ip ≠ 0xFFFF := by
      rw [State.advanceIp_ip]
      bv_omega
    have raised := consumeByte_beyond beforeEnd (by rw [State.advanceIp_cs, address]; exact hsecond)
    rw [State.advanceIp_cs, address] at raised
    exact raises hn (consumeBytes_second_error hip hfirst raised)

end Sys2Proof.Proofs
end

section
/-! PROOFS. Encoding and decoding (30_encoding.md R81, R84, R85, R91 to R95): the operand bytes that a format of the
decode table admits, and the one instruction they spell. -/

namespace Sys2Proof.Proofs

open Sys2Proof Sys2Proof.Machine Sys2Proof.Claims

/-! ### What the decoder reads -/

/-- The operand bytes that follow an opcode byte of a format, and the instruction they spell with it (R81, R89). -/
inductive Spells : Format → List Byte → Instr → Prop where
  | op (i : Instr) : Spells (.op i) [] i
  | ib (f : Byte → Instr) (b : Byte) : Spells (.ib f) [b] (f b)
  | iw (f : Word → Instr) (w : Word) : Spells (.iw f) [lowByte w, highByte w] (f w)
  | mrm (f : BitVec 3 → BitVec 3 → Instr) (reg rm : BitVec 3) : Spells (.mrm f) [modrmByte reg rm] (f reg rm)
  | ext (e : BitVec 3) (f : BitVec 3 → Instr) (rm : BitVec 3) : Spells (.ext e f) [modrmByte e rm] (f rm)
  | cs (cs ds : BitVec 3 → Instr) (rm : BitVec 3) : Spells (.sreg cs ds) [modrmByte 1 rm] (cs rm)
  | ds (cs ds : BitVec 3 → Instr) (rm : BitVec 3) : Spells (.sreg cs ds) [modrmByte 3 rm] (ds rm)

/-- A format admits one number of operand bytes (R88). -/
theorem Spells.length {fmt : Format} {ops : List Byte} {i : Instr} (h : Spells fmt ops i) :
    ops.length = fmt.operandBytes := by
  cases h <;> rfl

/-- An instruction may be named otherwise than the format names it. -/
theorem Spells.congr {fmt : Format} {ops : List Byte} {i j : Instr} (h : Spells fmt ops i) (hij : i = j) :
    Spells fmt ops j := hij ▸ h

/-- Every format spells some instruction. -/
theorem exists_spells (fmt : Format) : ∃ ops i, Spells fmt ops i := by
  cases fmt with
  | op i => exact ⟨_, _, .op i⟩
  | ib f => exact ⟨_, _, .ib f 0⟩
  | iw f => exact ⟨_, _, .iw f 0⟩
  | mrm f => exact ⟨_, _, .mrm f 0 0⟩
  | ext e f => exact ⟨_, _, .ext e f 0⟩
  | sreg cs ds => exact ⟨_, _, .cs cs ds 0⟩

/-- A ModR/M byte with mod other than 3 is refused as a mode error, whatever its reg field (R84). -/
theorem decodeModrm_mode {fmt : Format} {m : Byte} (h : modrmMod m ≠ 3) : decodeModrm fmt m = .error (.mode m) := by
  unfold decodeModrm
  exact if_pos h

/-- Two register fields always map (R85). -/
theorem decodeModrm_mrm (f : BitVec 3 → BitVec 3 → Instr) (reg rm : BitVec 3) :
    decodeModrm (.mrm f) (modrmByte reg rm) = .ok (f reg rm) := by
  simp [decodeModrm]

/-- An opcode extension must be the reg field (R93). -/
theorem decodeModrm_ext (e : BitVec 3) (f : BitVec 3 → Instr) (reg rm : BitVec 3) :
    decodeModrm (.ext e f) (modrmByte reg rm) = if reg = e then .ok (f rm) else .error (.field (modrmByte reg rm)) := by
  simp [decodeModrm]

/-- A ModR/M byte that is not refused is register-direct (R84), and its format spells the instruction with it. -/
theorem spells_of_decodeModrm {fmt : Format} {m : Byte} {i : Instr} (h : decodeModrm fmt m = .ok i) :
    Spells fmt [m] i := by
  by_cases hmod : modrmMod m = 3
  case neg =>
    rw [decodeModrm_mode hmod] at h
    cases h
  rw [← modrmByte_fields m hmod] at h ⊢
  cases fmt with
  | op i | ib f | iw f => simp [decodeModrm] at h
  | mrm f =>
    rw [decodeModrm_mrm] at h
    cases h
    exact .mrm f _ _
  | ext e f =>
    rw [decodeModrm_ext] at h
    split_ifs at h with he
    cases h
    exact he ▸ .ext e f _
  | sreg cs ds =>
    rw [decodeModrm_sreg] at h
    split_ifs at h with hcs hds
    · cases h
      exact hcs ▸ .cs cs ds _
    · cases h
      exact hds ▸ .ds cs ds _

/-- Decoding the operand bytes of a format takes bytes that spell an instruction from the front of the list (R89). -/
theorem decodeOperands_ok {fmt : Format} {bs rest : List Byte} {i : Instr} :
    decodeOperands fmt bs = .ok (i, rest) ↔ ∃ ops, Spells fmt ops i ∧ bs = ops ++ rest := by
  constructor
  · intro h
    unfold decodeOperands at h
    have modrm {fmt : Format} {m : Byte} {r : List Byte}
        (h : (decodeModrm fmt m).map (fun i => (i, r)) = .ok (i, rest)) :
        ∃ ops, Spells fmt ops i ∧ m :: r = ops ++ rest := by
      cases hm : decodeModrm fmt m with
      | error e => simp [hm, Except.map] at h
      | ok j =>
        obtain ⟨rfl, rfl⟩ : j = i ∧ r = rest := by simpa [hm, Except.map] using h
        exact ⟨[m], spells_of_decodeModrm hm, rfl⟩
    split at h
    · cases h
      exact ⟨_, .op _, rfl⟩
    · cases h
      exact ⟨_, .ib _ _, rfl⟩
    · cases h
      exact ⟨_, .iw _ _, by simp⟩
    · exact modrm h
    · exact modrm h
    · exact modrm h
    · cases h
  · rintro ⟨ops, h, rfl⟩
    cases h <;> simp [decodeOperands, decodeModrm, Except.map]

/-- The decoder takes an opcode byte with a row in the table, and operand bytes that spell an instruction with it (R101). -/
theorem decode_ok {bs rest : List Byte} {i : Instr} :
    decode bs = .ok (i, rest) ↔
      ∃ opc fmt ops, lookup opc = some fmt ∧ Spells fmt ops i ∧ bs = opc :: ops ++ rest := by
  cases bs with
  | nil => simp [decode]
  | cons opc bs =>
    cases hopc : lookup opc with
    | none => simp_all [decode]
    | some fmt => simp [decode, hopc, decodeOperands_ok]

/-! ### What the encoder writes -/

/-- Every instruction is encoded by an opcode byte with a row in the table, and operand bytes that spell it (R91). -/
theorem encode_spells (i : Instr) :
    ∃ opc ops fmt, encode i = opc :: ops ∧ lookup opc = some fmt ∧ Spells fmt ops i := by
  cases i with
  | addAlImm8 | orAlImm8 | adcAlImm8 | andAlImm8 | subAlImm8 | xorAlImm8 | cmpAlImm8
  | jbRel8 | jzRel8 | jnzRel8 | jbeRel8 | loopRel8 | jmpRel8 | intImm8 => exact ⟨_, _, _, rfl, rfl, .ib _ _⟩
  | daa | pusha | pushf | popf | movsb | movsw | stosb | stosw | lodsb | lodsw | ret => exact ⟨_, _, _, rfl, rfl, .op _⟩
  | callRel16 => exact ⟨_, _, _, rfl, rfl, .iw _ _⟩
  | decR16 r | pushR16 r | popR16 r => cases r <;> exact ⟨_, _, _, rfl, rfl, .op _⟩
  | movR8Imm8 r => cases r <;> exact ⟨_, _, _, rfl, rfl, .ib _ _⟩
  | movR16Imm16 r => cases r <;> exact ⟨_, _, _, rfl, rfl, .iw _ _⟩
  | addRm8R8 | orRm8R8 | adcRm8R8 | andRm8R8 | subRm8R8 | xorRm8R8 | cmpRm8R8 | movRm8R8 | movRm16R16
  | addR8Rm8 | orR8Rm8 | adcR8Rm8 | andR8Rm8 | subR8Rm8 | xorR8Rm8 | cmpR8Rm8 | movR8Rm8 | movR16Rm16 =>
    exact ⟨_, _, _, rfl, rfl, .congr (.mrm _ _ _) (by simp)⟩
  | movRm16Cs | movCsRm16 => exact ⟨_, _, _, rfl, rfl, .congr (.cs _ _ _) (by simp)⟩
  | movRm16Ds | movDsRm16 => exact ⟨_, _, _, rfl, rfl, .congr (.ds _ _ _) (by simp)⟩
  | rclRm16Cl | incRm8 => exact ⟨_, _, _, rfl, rfl, .congr (.ext _ _ _) (by simp)⟩

/-- Settles O2: what the encoder writes is what the decoder reads. -/
theorem decodeOfEncode : Obligations.DecodeOfEncode := by
  intro i rest
  obtain ⟨opc, ops, fmt, hi, hopc, hops⟩ := encode_spells i
  exact decode_ok.2 ⟨opc, fmt, ops, hopc, hops, by rw [hi]⟩

/-! ### One encoding per instruction -/

/-- The format spells, after the opcode byte `opc`, no instruction but with the bytes that encode it. -/
def FormatEncodes (opc : Byte) (fmt : Format) : Prop := ∀ ops i, Spells fmt ops i → encode i = opc :: ops

namespace FormatEncodes
variable {opc : Byte}

theorem op {i : Instr} (h : encode i = [opc]) : FormatEncodes opc (.op i) := by
  rintro _ _ ⟨⟩
  exact h

theorem ib {f : Byte → Instr} (h : ∀ b, encode (f b) = [opc, b]) : FormatEncodes opc (.ib f) := by
  rintro _ _ ⟨⟩
  exact h _

theorem iw {f : Word → Instr} (h : ∀ w, encode (f w) = [opc, lowByte w, highByte w]) : FormatEncodes opc (.iw f) := by
  rintro _ _ ⟨⟩
  exact h _

theorem mrm {f : BitVec 3 → BitVec 3 → Instr} (h : ∀ reg rm, encode (f reg rm) = [opc, modrmByte reg rm]) :
    FormatEncodes opc (.mrm f) := by
  rintro _ _ ⟨⟩
  exact h _ _

theorem ext {e : BitVec 3} {f : BitVec 3 → Instr} (h : ∀ rm, encode (f rm) = [opc, modrmByte e rm]) :
    FormatEncodes opc (.ext e f) := by
  rintro _ _ ⟨⟩
  exact h _

theorem sreg {cs ds : BitVec 3 → Instr} (hcs : ∀ rm, encode (cs rm) = [opc, modrmByte 1 rm])
    (hds : ∀ rm, encode (ds rm) = [opc, modrmByte 3 rm]) : FormatEncodes opc (.sreg cs ds) := by
  rintro _ _ (_ | _)
  · exact hcs _
  · exact hds _

end FormatEncodes

/-- The format of the row encodes, after every opcode byte of the row. -/
def RowEncodes (row : OpcodeRow) : Prop := ∀ opc, opc &&& row.mask = row.value → FormatEncodes opc (row.format opc)

/-- A row of one opcode byte. -/
theorem RowEncodes.byte {opc : Byte} {format : Byte → Format} (h : FormatEncodes opc (format opc)) :
    RowEncodes ⟨0xFF, opc, format⟩ := by
  intro opc' hopc
  obtain rfl : opc' = opc := BitVec.and_allOnes.symm.trans hopc
  exact h

@[simp] theorem opcodeR_opcodeWithR (base : BitVec 5) (r : BitVec 3) : opcodeR (opcodeWithR base r) = r := by
  revert base r
  decide

/-- An opcode byte is its upper five bits and its register field (R81). -/
theorem opcodeWithR_fields (opc : Byte) : opcodeWithR (opc.extractLsb' 3 5) (opcodeR opc) = opc := by
  revert opc
  decide

/-- The mask of a row with a register field clears that field alone. -/
theorem mask_opcodeWithR (base : BitVec 5) (r : BitVec 3) : opcodeWithR base r &&& 0xF8 = opcodeWithR base 0 := by
  revert base r
  decide

/-- A row of eight opcode bytes, one per value of the register field (R81). -/
theorem RowEncodes.field (base : BitVec 5) {format : Byte → Format}
    (h : ∀ r, FormatEncodes (opcodeWithR base r) (format (opcodeWithR base r))) :
    RowEncodes ⟨0xF8, opcodeWithR base 0, format⟩ := by
  intro opc hopc
  have upper : opcodeWithR (opc.extractLsb' 3 5) 0 = opcodeWithR base 0 := by
    rw [← mask_opcodeWithR _ (opcodeR opc), opcodeWithR_fields]
    exact hopc
  obtain rfl := (BitVec.append_left_inj 0#3).1 upper
  simpa only [opcodeWithR_fields] using h (opcodeR opc)

/-- The three rows of a byte ALU operation (R91). -/
theorem aluRows_encode {base : Byte} {rmR rRm : Reg8 → Reg8 → Instr} {alImm : Byte → Instr}
    (hrmR : ∀ rm reg, encode (rmR rm reg) = [base, modrmByte reg.field rm.field])
    (hrRm : ∀ reg rm, encode (rRm reg rm) = [base + 2, modrmByte reg.field rm.field])
    (halImm : ∀ b, encode (alImm b) = [base + 4, b]) : ∀ row ∈ aluRows base rmR rRm alImm, RowEncodes row := by
  simp only [aluRows, List.forall_mem_cons]
  exact ⟨.byte (.mrm fun reg rm => by simp [hrmR, Reg8.field_ofField]),
    .byte (.mrm fun reg rm => by simp [hrRm, Reg8.field_ofField]), .byte (.ib halImm), List.forall_mem_nil _⟩

theorem arithRows_encode : ∀ row ∈ arithRows, RowEncodes row := by
  simp only [arithRows, List.forall_mem_append, List.forall_mem_cons]
  refine ⟨⟨⟨⟨⟨⟨⟨?_, ?_⟩, ?_⟩, ?_⟩, ?_⟩, ?_⟩, ?_⟩, .byte (.op rfl),
    .field 0b01001 fun r => .op (by simp [encode, Reg16.field_ofField]),
    .byte (.ext fun rm => by simp [encode, Reg16.field_ofField]),
    .byte (.ext fun rm => by simp [encode, Reg8.field_ofField]), List.forall_mem_nil _⟩
  all_goals exact aluRows_encode (fun _ _ => rfl) (fun _ _ => rfl) fun _ => rfl

theorem stringRows_encode : ∀ row ∈ stringRows, RowEncodes row := by
  simp only [stringRows, List.forall_mem_cons]
  exact ⟨.byte (.op rfl), .byte (.op rfl), .byte (.op rfl), .byte (.op rfl), .byte (.op rfl), .byte (.op rfl),
    List.forall_mem_nil _⟩

theorem stackRows_encode : ∀ row ∈ stackRows, RowEncodes row := by
  simp only [stackRows, List.forall_mem_cons]
  exact ⟨.field 0b01010 fun r => .op (by simp [encode, Reg16.field_ofField]),
    .field 0b01011 fun r => .op (by simp [encode, Reg16.field_ofField]),
    .byte (.op rfl), .byte (.op rfl), .byte (.op rfl), List.forall_mem_nil _⟩

theorem controlRows_encode : ∀ row ∈ controlRows, RowEncodes row := by
  simp only [controlRows, List.forall_mem_cons]
  exact ⟨.byte (.ib fun _ => rfl), .byte (.ib fun _ => rfl), .byte (.ib fun _ => rfl), .byte (.ib fun _ => rfl),
    .byte (.op rfl), .byte (.ib fun _ => rfl), .byte (.ib fun _ => rfl), .byte (.iw fun _ => rfl),
    .byte (.ib fun _ => rfl), List.forall_mem_nil _⟩

theorem moveRows_encode : ∀ row ∈ moveRows, RowEncodes row := by
  simp only [moveRows, List.forall_mem_cons]
  refine ⟨.byte (.mrm fun reg rm => ?_), .byte (.mrm fun reg rm => ?_), .byte (.mrm fun reg rm => ?_),
    .byte (.mrm fun reg rm => ?_), .byte (.sreg (fun rm => ?_) fun rm => ?_), .byte (.sreg (fun rm => ?_) fun rm => ?_),
    .field 0b10110 fun r => .ib fun b => ?_, .field 0b10111 fun r => .iw fun w => ?_, List.forall_mem_nil _⟩
  all_goals simp [encode, Reg8.field_ofField, Reg16.field_ofField]

/-- Every row of the decode table encodes (R91). -/
theorem opcodeRows_encode : ∀ row ∈ opcodeRows, RowEncodes row := by
  simp only [opcodeRows, List.forall_mem_append]
  exact ⟨⟨⟨⟨arithRows_encode, stringRows_encode⟩, stackRows_encode⟩, controlRows_encode⟩, moveRows_encode⟩

/-- The format that the lookup answers encodes after the opcode byte looked up (R101). -/
theorem formatEncodes_of_lookup {opc : Byte} {fmt : Format} (h : lookup opc = some fmt) : FormatEncodes opc fmt := by
  obtain ⟨row, found, rfl⟩ := Option.map_eq_some_iff.1 h
  exact opcodeRows_encode row (List.mem_of_find?_eq_some found) opc (by simpa using List.find?_some found)

/-- Settles O3: the operand bytes that the decoder takes are the ones the encoder writes. -/
theorem encodeOfDecode : Obligations.EncodeOfDecode := by
  intro bs rest i h
  obtain ⟨opc, fmt, ops, hopc, hops, rfl⟩ := decode_ok.1 h
  rw [formatEncodes_of_lookup hopc ops i hops]

/-! ### Lengths -/

/-- A byte that is not unassigned has a row in the decode table (R92). -/
theorem lookup_of_not_unassigned {opc : Byte} (h : ¬ Unassigned opc) : ∃ fmt, lookup opc = some fmt := by
  rw [← lengthOf_eq_none, lengthOf_eq_lookup, Option.map_eq_none_iff] at h
  exact Option.ne_none_iff_exists'.1 h

/-- Settles O5: an encoding is an opcode byte and the operand bytes of its format. -/
theorem lengthFromOpcode : Obligations.LengthFromOpcode := by
  refine ⟨fun i => ?length, lengthOf_eq_none, fun opc rest h => ?refused, fun opc h => ?begins⟩
  case length =>
    obtain ⟨opc, ops, fmt, hi, hopc, hops⟩ := encode_spells i
    simp [hi, lengthOf_eq_lookup, hopc, hops.length]
  case refused => simp [decode, lookup_of_unassigned h]
  case begins =>
    obtain ⟨fmt, hopc⟩ := lookup_of_not_unassigned h
    obtain ⟨ops, i, hops⟩ := exists_spells fmt
    exact ⟨i, by rw [formatEncodes_of_lookup hopc ops i hops]; rfl⟩

/-! ### ModR/M bytes -/

/-- The use of the reg field under a format that takes a ModR/M byte. -/
def formatUse : Format → Option ModrmUse
  | .mrm _ => some .registers
  | .ext e _ => some (.extension e)
  | .sreg _ _ => some .segment
  | _ => none

/-- The use that R91 gives an opcode byte is that of its format. -/
theorem modrmUse_eq_lookup (opc : Byte) : modrmUse opc = (lookup opc).bind formatUse := by
  revert opc
  decide

/-- An opcode byte that takes a ModR/M byte has a format of that use. -/
theorem lookup_of_modrmUse {opc : Byte} {u : ModrmUse} (h : modrmUse opc = some u) :
    ∃ fmt, lookup opc = some fmt ∧ formatUse fmt = some u := by
  rwa [modrmUse_eq_lookup, Option.bind_eq_some_iff] at h

theorem modeWellFormed_iff (m : Byte) : ModeWellFormed m ↔ modrmMod m = 3 := by
  revert m
  decide

theorem fieldWellFormed_extension (e reg rm : BitVec 3) :
    FieldWellFormed (.extension e) (modrmByte reg rm) ↔ reg = e := by
  have field : (modrmByte reg rm).toNat / 8 % 8 = reg.toNat := by
    revert reg rm
    decide
  rw [FieldWellFormed, field, BitVec.toNat_inj]

theorem fieldWellFormed_segment (reg rm : BitVec 3) :
    FieldWellFormed .segment (modrmByte reg rm) ↔ reg = 1 ∨ reg = 3 := by
  revert reg rm
  decide

section
variable {fmt : Format} {u : ModrmUse} {m : Byte} (hu : formatUse fmt = some u)
include hu

/-- A format that takes a ModR/M byte consumes that one byte. -/
theorem operandBytes_of_formatUse : fmt.operandBytes = 1 := by
  cases fmt with
  | op | ib | iw => cases hu
  | mrm | ext | sreg => rfl

/-- A format that takes a ModR/M byte decodes it alone and leaves the bytes after it. -/
theorem decodeOperands_modrm (rest : List Byte) :
    decodeOperands fmt (m :: rest) = (decodeModrm fmt m).map fun i => (i, rest) := by
  cases fmt with
  | op | ib | iw => cases hu
  | mrm | ext | sreg => rfl

/-- A register-direct byte is accepted when its reg field maps and is refused as a field error when not (R85, R93). -/
theorem decodeModrm_direct (hmode : ModeWellFormed m) :
    (FieldWellFormed u m → ∃ i, decodeModrm fmt m = .ok i) ∧
    (¬ FieldWellFormed u m → decodeModrm fmt m = .error (.field m)) := by
  rw [← modrmByte_fields m ((modeWellFormed_iff m).1 hmode)]
  cases fmt with
  | op | ib | iw => cases hu
  | mrm f =>
    cases hu
    exact ⟨fun _ => ⟨_, decodeModrm_mrm f _ _⟩, fun h => absurd trivial h⟩
  | ext e f =>
    cases hu
    rw [fieldWellFormed_extension, decodeModrm_ext]
    exact ⟨fun h => ⟨_, if_pos h⟩, fun h => if_neg h⟩
  | sreg cs ds =>
    cases hu
    rw [fieldWellFormed_segment, decodeModrm_sreg]
    refine ⟨?_, fun h => ?_⟩
    · rintro (h | h)
      · exact ⟨_, if_pos h⟩
      · exact ⟨ds (modrmRm m), by simp [h]⟩
    · rw [not_or] at h
      rw [if_neg h.1, if_neg h.2]

end

/-- Settles O4: the mode is checked first, and a register-direct byte is then checked for its reg field. -/
theorem modrmAcceptedExactly : Obligations.ModrmAcceptedExactly := by
  intro opc m rest u huse
  obtain ⟨fmt, hopc, hu⟩ := lookup_of_modrmUse huse
  have decoded : decode (opc :: m :: rest) = (decodeModrm fmt m).map fun i => (i, rest) := by
    simp only [decode, hopc, decodeOperands_modrm hu]
  have mode (h : ¬ ModeWellFormed m) : decode (opc :: m :: rest) = .error (.mode m) := by
    rw [decoded, decodeModrm_mode (mt (modeWellFormed_iff m).2 h)]
    rfl
  have field (hmode : ModeWellFormed m) (h : ¬ FieldWellFormed u m) :
      decode (opc :: m :: rest) = .error (.field m) := by
    rw [decoded, (decodeModrm_direct hu hmode).2 h]
    rfl
  refine ⟨⟨?accepted_only, ?accepted⟩, mode, field⟩
  case accepted_only =>
    rintro ⟨i, hi⟩
    by_contra hm
    by_cases hmode : ModeWellFormed m
    · rw [field hmode fun hfield => hm ⟨hmode, hfield⟩] at hi
      cases hi
    · rw [mode hmode] at hi
      cases hi
  case accepted =>
    rintro ⟨hmode, hfield⟩
    obtain ⟨i, hi⟩ := (decodeModrm_direct hu hmode).1 hfield
    exact ⟨i, by rw [decoded, hi]; rfl⟩

/-- One operand byte follows an opcode byte that takes a ModR/M byte (R95). -/
theorem operandBytes_of_modrmUse {opc : Byte} {u : ModrmUse} (huse : modrmUse opc = some u) : operandBytes opc = 1 := by
  obtain ⟨fmt, hopc, hu⟩ := lookup_of_modrmUse huse
  rw [operandBytes, hopc]
  exact operandBytes_of_formatUse hu

/-! ### Sample words -/

/-- A table word whose bytes begin with an encoding decodes to its instruction. -/
theorem decodeTableWord_encode {nbits w : Nat} {i : Instr} (rest : List Byte)
    (h : tableBytes nbits w = encode i ++ rest) :
    decodeTableWord nbits w = some i := by
  rw [decodeTableWord, h, decodeOfEncode i rest]

/-- Settles O1: each word's bytes are an encoding, and the zero bytes above it. -/
theorem sampleWordsDecode : Obligations.SampleWordsDecode :=
  ⟨decodeTableWord_encode [0] rfl, decodeTableWord_encode [0] rfl, decodeTableWord_encode [0, 0] rfl,
    decodeTableWord_encode [0] rfl, decodeTableWord_encode [0, 0] rfl, decodeTableWord_encode [0, 0] rfl,
    decodeTableWord_encode [] rfl, decodeTableWord_encode [0] rfl, decodeTableWord_encode [0] rfl,
    decodeTableWord_encode [] rfl⟩

end Sys2Proof.Proofs
end

section
/-! PROOFS. The step (30_encoding.md R98): fetching the bytes at CS:IP (R100 to R102), and what a step does to RUN and
TICKS (R104, R105, R36). -/

namespace Sys2Proof.Proofs

open Sys2Proof Sys2Proof.Machine Sys2Proof.Claims

/-! ### Fetching bytes that stand in memory -/

/-- The bytes stand in memory from the address `a` on. -/
def BytesAt (m : Memory) (a : Nat) (bs : List Byte) : Prop := ∀ k (h : k < bs.length), m.read (a + k) = bs[k]

theorem bytesAt_cons {m : Memory} {a : Nat} {b : Byte} {bs : List Byte} :
    BytesAt m a (b :: bs) ↔ m.read a = b ∧ BytesAt m (a + 1) bs := by
  constructor
  · intro h
    refine ⟨h 0 (by simp), fun k hk => ?_⟩
    rw [show a + 1 + k = a + (k + 1) by omega]
    exact h (k + 1) (by simpa using hk)
  · rintro ⟨hb, hbs⟩ (_ | k) hk
    · exact hb
    · rw [show a + (k + 1) = a + 1 + k by omega]
      exact hbs k (by simpa using hk)

/-- Consuming takes the bytes that stand after IP, where they lie in the segment and in memory (R89). -/
theorem consumeBytes_bytesAt {bs : List Byte} {s : State} (hseg : s.ip.toNat + bs.length ≤ 0xFFFF)
    (hmem : lin s.cs s.ip + bs.length < Config.memSize) (hbs : BytesAt s.mem (lin s.cs s.ip + 1) bs) :
    ∃ t, consumeBytes bs.length s = .ok (bs, t) := by
  induction bs generalizing s with
  | nil => exact ⟨s, rfl⟩
  | cons b bs ih =>
    obtain ⟨hb, hbs⟩ := bytesAt_cons.1 hbs
    simp only [List.length_cons] at hseg hmem
    have hip : s.ip ≠ 0xFFFF := by bv_omega
    have next : lin s.cs (s.ip + 1) = lin s.cs s.ip + 1 := lin_succ s.cs hip
    have first : consumeByte s = .ok (b, s.advanceIp 1) :=
      consumeByte_ok.2 ⟨hip, by omega, by rw [next, hb], rfl⟩
    have hnext : (s.advanceIp 1).ip.toNat = s.ip.toNat + 1 := by
      rw [State.advanceIp_ip]
      bv_omega
    have address : lin (s.advanceIp 1).cs (s.advanceIp 1).ip = lin s.cs s.ip + 1 := next
    obtain ⟨t, ht⟩ := ih (s := s.advanceIp 1) (by omega) (by omega) (by rw [address]; exact hbs)
    exact ⟨t, by simp only [List.length_cons, consumeBytes, first, ht]⟩

/-- The fetch decodes the opcode byte and the operand bytes that stand at CS:IP (R100 to R102). -/
theorem fetch_eq_decode {s : State} {opc : Byte} {ops : List Byte} (hseg : s.ip.toNat + ops.length ≤ 0xFFFF)
    (hmem : lin s.cs s.ip + ops.length < Config.memSize) (hbs : BytesAt s.mem (lin s.cs s.ip) (opc :: ops))
    (hlen : ops.length = operandBytes opc) :
    fetch s = ((decode (opc :: ops)).mapError (DecodeError.toFatal opc)).map Prod.fst := by
  obtain ⟨hopc, hops⟩ := bytesAt_cons.1 hbs
  obtain ⟨t, consumed⟩ := consumeBytes_bytesAt hseg hmem hops
  rw [fetch, memRead8_ok.2 ⟨Nat.lt_of_le_of_lt (Nat.le_add_right _ _) hmem, rfl⟩]
  simp only [hopc, ← hlen, consumed]
  cases decode (opc :: ops) <;> rfl

/-- The operand bytes of an instruction are as many as its opcode byte says (R95). -/
theorem decode_whole {bs : List Byte} {i : Instr} (h : decode bs = .ok (i, [])) :
    ∃ opc ops, bs = opc :: ops ∧ ops.length = operandBytes opc := by
  obtain ⟨opc, fmt, ops, hopc, hops, rfl⟩ := decode_ok.1 h
  exact ⟨opc, ops, by simp, by rw [hops.length, operandBytes, hopc]⟩

/-- A step of a running machine within its budget runs the instruction that it fetches (R98). -/
theorem step_of_fetch_ok {s : State} {i : Instr} (hs : CanFetch s) (h : fetch s = .ok i) : step s = exec i s := by
  simp [step, hs.1, Nat.not_lt.2 hs.2, h]

/-- Settles O7: the fetch answers the decoded instruction. -/
theorem stepRunsDecodedInstruction : Obligations.StepRunsDecodedInstruction := by
  intro s bs i hs hdecode hseg hmem hbs
  obtain ⟨opc, ops, rfl, hlen⟩ := decode_whole hdecode
  rw [List.length_cons] at hseg hmem
  refine step_of_fetch_ok hs ?_
  rw [fetch_eq_decode (by omega) hmem hbs hlen, hdecode]
  rfl

/-- Settles O11: the fetch answers the decoder's error. -/
theorem modrmFaults : Obligations.ModrmFaults := by
  intro s opc m u hs hip hmem hopc hm huse
  have hbs : BytesAt s.mem (lin s.cs s.ip) [opc, m] :=
    bytesAt_cons.2 ⟨hopc, bytesAt_cons.2 ⟨hm, fun k hk => absurd hk k.not_lt_zero⟩⟩
  have hseg : s.ip.toNat + 1 ≤ 0xFFFF := by bv_omega
  have fetched := fetch_eq_decode (ops := [m]) hseg hmem hbs (operandBytes_of_modrmUse huse).symm
  obtain ⟨-, mode, field⟩ := modrmAcceptedExactly opc m [] u huse
  refine ⟨fun h => step_of_fetch_error hs ?_, fun hmode h => step_of_fetch_error hs ?_⟩
  · rw [fetched, mode h]
    rfl
  · rw [fetched, field hmode h]
    rfl

/-- Settles O9: the step looks at RUN first. -/
theorem haltedHasNoStep : Obligations.HaltedHasNoStep := by
  intro s o h
  rw [step, h]

/-! ### RUN and TICKS -/

/-- RUN and TICKS: what the end of the cycle and the end of the run write, and no body (R104, R105). -/
def clock (s : State) : RunState × Nat := (s.run, s.ticks)

/-- If the computation answers a state, RUN and TICKS are as in `s`. -/
def ClockKept (s : State) (x : Except Fatal State) : Prop := ∀ t, x = .ok t → clock t = clock s

namespace ClockKept
variable {s t : State} {x : Except Fatal State}

theorem of_eq (h : clock t = clock s) : ClockKept s (.ok t) := by
  rintro _ ⟨⟩
  exact h

/-- After a computation that answers no state, such as a load. -/
theorem bind_value {α : Type} {y : Except Fatal α} {f : α → Except Fatal State} (h : ∀ a, ClockKept s (f a)) :
    ClockKept s (y >>= f) := by
  intro t ht
  obtain ⟨a, -, ha⟩ := bind_ok.1 ht
  exact h a t ha

/-- One computation after another. -/
theorem bind {f : State → Except Fatal State} (hx : ClockKept s x) (hf : ∀ u, ClockKept u (f u)) :
    ClockKept s (x >>= f) := by
  intro t ht
  obtain ⟨u, hu, ht⟩ := bind_ok.1 ht
  exact (hf u t ht).trans (hx u hu)

end ClockKept

section
variable (s : State)

theorem clock_setReg16 (r : Reg16) (v : Word) : clock (s.setReg16 r v) = clock s := by simp [clock]

theorem jumpIf_clock (c : Bool) (d : Byte) : clock (jumpIf c d s) = clock s := by cases c <;> rfl

theorem push16_clock (v : Word) : ClockKept s (push16 v s) := by
  intro t h
  obtain ⟨m, -, rfl⟩ := push16_ok.1 h
  rfl

/-- PUSHA is eight pushes (R184). -/
theorem pushaBody_clock : ClockKept s (pushaBody s) :=
  (push16_clock s _).bind fun s1 => (push16_clock s1 _).bind fun s2 => (push16_clock s2 _).bind fun s3 =>
    (push16_clock s3 _).bind fun s4 => (push16_clock s4 _).bind fun s5 => (push16_clock s5 _).bind fun s6 =>
      (push16_clock s6 _).bind fun s7 => push16_clock s7 _

theorem popfBody_clock : ClockKept s (popfBody s) := by
  intro t h
  obtain ⟨⟨v, u⟩, hpop, ht⟩ := bind_ok.1 h
  obtain ⟨-, rfl⟩ := pop16_ok.1 hpop
  cases ht
  rfl

/-- RET raises SP and then ends the run with status 0 or writes IP (R208). -/
theorem retBody_ok {e : BodyEnd} (h : retBody s = .ok e) :
    ∃ v, segRead16 s.mem s.ss s.sp = .ok v ∧
      e = if v = 0 then .terminated 0 { s with sp := s.sp + 2 } else .returned { s with sp := s.sp + 2, ip := v } := by
  obtain ⟨⟨v, u⟩, hpop, he⟩ := bind_ok.1 h
  obtain ⟨hv, rfl⟩ := pop16_ok.1 hpop
  exact ⟨v, hv, (Except.ok.inj he).symm⟩

theorem retBody_clock {e : BodyEnd} (h : retBody s = .ok e) : clock (endState e) = clock s := by
  obtain ⟨v, -, rfl⟩ := retBody_ok s h
  split <;> rfl

theorem intBody_clock {n : Byte} {e : BodyEnd} (h : intBody n s = .ok e) : clock (endState e) = clock s := by
  obtain ⟨out, rfl, -⟩ | ⟨rfl, -⟩ := intBody_ok h <;> rfl

end

/-- The instruction completed: RUN is as before and TICKS is one higher (R104). -/
def Completes (s t : State) : Prop := t.run = s.run ∧ t.ticks = s.ticks + 1

/-- The instruction ended the run: RUN is Halted and TICKS is as before (R105). -/
def Ends (s t : State) : Prop := t.isHalted = true ∧ t.ticks = s.ticks

section
variable {len : Nat} {s t : State}

theorem completes_endCycle {u : State} (h : clock u = clock s) : Completes s u.endCycle := by
  obtain ⟨hrun, hticks⟩ := Prod.mk.inj h
  exact ⟨hrun, congrArg (· + 1) hticks⟩

theorem cycleOrExit_clock {body : State → Except Fatal BodyEnd} (h : cycleOrExit len body s = .next t)
    (hb : ∀ u e, body u = .ok e → clock (endState e) = clock u) :
    Completes s t ∨ Ends s t := by
  obtain ⟨u, hu, rfl⟩ | ⟨st, u, hu, rfl⟩ := cycleOrExit_next h
  · exact .inl (completes_endCycle (hb (s.advanceIp (len - 1)) _ hu))
  · exact .inr ⟨rfl, (Prod.mk.inj (hb (s.advanceIp (len - 1)) _ hu)).2⟩

theorem cycle_clock {body : State → Except Fatal State} (h : cycle len body s = .next t)
    (hb : ∀ u, ClockKept u (body u)) : Completes s t := by
  obtain ⟨u, hu, rfl⟩ := cycle_next.1 h
  exact completes_endCycle (hb (s.advanceIp (len - 1)) u hu)

theorem cyclePure_clock {body : State → State} (h : cyclePure len body s = .next t)
    (hb : ∀ u, clock (body u) = clock u) : Completes s t := by
  cases h
  exact completes_endCycle (hb (s.advanceIp (len - 1)))

end

/-- An instruction that answers a next state completes or ends the run. -/
theorem exec_clock {i : Instr} {s t : State} (h : exec i s = .next t) : Completes s t ∨ Ends s t := by
  cases i with
  | addRm8R8 | addR8Rm8 | addAlImm8 => exact .inl (cyclePure_clock h fun u => by simp [addBody, clock])
  | adcRm8R8 | adcR8Rm8 | adcAlImm8 => exact .inl (cyclePure_clock h fun u => by simp [adcBody, clock])
  | subRm8R8 | subR8Rm8 | subAlImm8 => exact .inl (cyclePure_clock h fun u => by simp [subBody, clock])
  | cmpRm8R8 | cmpR8Rm8 | cmpAlImm8 => exact .inl (cyclePure_clock h fun u => rfl)
  | orRm8R8 | orR8Rm8 | orAlImm8 | andRm8R8 | andR8Rm8 | andAlImm8 | xorRm8R8 | xorR8Rm8 | xorAlImm8 =>
    exact .inl (cyclePure_clock h fun u => by simp [orBody, andBody, xorBody, logicBody, clock])
  | daa => exact .inl (cyclePure_clock h fun u => by simp [daaBody, clock])
  | decR16 => exact .inl (cyclePure_clock h fun u => by simp [decBody, clock])
  | rclRm16Cl => exact .inl (cyclePure_clock h fun u => by simp [rclBody, clock])
  | incRm8 => exact .inl (cyclePure_clock h fun u => by simp [incBody, clock])
  | movRm8R8 | movR8Rm8 | movR8Imm8 => exact .inl (cyclePure_clock h fun u => by simp [mov8Body, clock])
  | movRm16R16 | movR16Rm16 | movRm16Cs | movRm16Ds | movR16Imm16 =>
    exact .inl (cyclePure_clock h fun u => clock_setReg16 u _ _)
  | movCsRm16 | movDsRm16 => exact .inl (cyclePure_clock h fun u => rfl)
  | jbRel8 | jzRel8 | jnzRel8 | jbeRel8 | jmpRel8 =>
    exact .inl (cyclePure_clock h fun u => jumpIf_clock u _ _)
  | loopRel8 => exact .inl (cyclePure_clock h fun u => jumpIf_clock { u with cx := u.cx - 1 } _ _)
  | pushR16 => exact .inl (cycle_clock h fun u => .bind_value fun m => .of_eq rfl)
  | popR16 => exact .inl (cycle_clock h fun u => .bind_value fun v => .of_eq (clock_setReg16 u _ v))
  | pusha => exact .inl (cycle_clock h pushaBody_clock)
  | pushf => exact .inl (cycle_clock h fun u => push16_clock u _)
  | popf => exact .inl (cycle_clock h popfBody_clock)
  | callRel16 => exact .inl (cycle_clock h fun u => (push16_clock u _).bind fun v => .of_eq rfl)
  | movsb | movsw => exact .inl (cycle_clock h fun u => .bind_value fun v => .bind_value fun m => .of_eq rfl)
  | lodsb | lodsw | stosb | stosw => exact .inl (cycle_clock h fun u => .bind_value fun v => .of_eq rfl)
  | ret => exact cycleOrExit_clock h fun u e => retBody_clock u
  | intImm8 => exact cycleOrExit_clock h fun u e => intBody_clock u

/-- Settles O56: the step ends the run at the budget, or executes one instruction from Running. -/
theorem ticksCountCompleted : Obligations.TicksCountCompleted := by
  intro s t h
  obtain rfl | ⟨i, hi⟩ := step_next h
  · exact .inr ⟨rfl, rfl⟩
  · have running : s.run = .running := by
      cases hrun : s.run with
      | running => rfl
      | halted o =>
        rw [haltedHasNoStep s o hrun] at h
        cases h
    obtain ⟨hrun, hticks⟩ | ended := exec_clock hi
    · exact .inl ⟨hrun.trans running, hticks⟩
    · exact .inr ended

end Sys2Proof.Proofs
end

section
/-! PROOFS. What the instructions that write registers and flags leave unchanged, and the byte ALU in numbers
(41_arith_logic.md R120 to R129). -/

namespace Sys2Proof.Proofs

open Sys2Proof Sys2Proof.Machine Sys2Proof.Claims

/-! ### Frames of register and flag writes -/

/-- The state without the registers and flags that a register instruction can write, and without the counter of draws. -/
def withoutRegisters (s : State) : State :=
  { s with ax := 0, cx := 0, dx := 0, bx := 0, sp := 0, bp := 0, si := 0, di := 0, flags := .atReset, draws := 0 }

section
variable (s : State)

@[simp] theorem withoutRegisters_setStatus (x : StatusFlags) :
    withoutRegisters (s.setStatus x) = withoutRegisters s := rfl

@[simp] theorem withoutRegisters_setCarryOverflow (c o : Bool) :
    withoutRegisters (s.setCarryOverflow c o) = withoutRegisters s := rfl

@[simp] theorem withoutRegisters_drew (n : Nat) : withoutRegisters (s.drew n) = withoutRegisters s := rfl

@[simp] theorem withoutRegisters_setReg16 (r : Reg16) (v : Word) :
    withoutRegisters (s.setReg16 r v) = withoutRegisters s := by cases r <;> rfl

@[simp] theorem withoutRegisters_setReg8 (r : Reg8) (v : Byte) :
    withoutRegisters (s.setReg8 r v) = withoutRegisters s := by cases r <;> rfl

end

section
variable {s t : State}

/-- Where the words are those after a byte write, the other bytes and the pointer and index registers are kept (R22). -/
theorem bytesKept_of_setReg8 {n : Nat} {d : Reg8} {v : Byte}
    (h : ∀ r, t.reg16 r = ((s.advanceIp n).setReg8 d v).reg16 r) : BytesKept d s t := by
  have bytes (r : Reg8) : t.reg8 r = ((s.advanceIp n).setReg8 d v).reg8 r := by simp only [State.reg8, h]
  obtain ⟨hsp, hbp, hsi, hdi⟩ := (s.advanceIp n).setReg8_pointers d v
  refine ⟨fun r hr => ?_, (h .sp).trans hsp, (h .bp).trans hbp, (h .si).trans hsi, (h .di).trans hdi⟩
  rw [bytes, State.reg8_setReg8, if_neg hr, State.reg8_advanceIp]

/-- Where the words are those after a write to one of them, the other words are kept (R26). -/
theorem wordsKept_of_setReg16 {n : Nat} {d : Reg16} {v : Word}
    (h : ∀ r, t.reg16 r = ((s.advanceIp n).setReg16 d v).reg16 r) : WordsKept [d] s t := by
  intro r hr
  rw [h, State.reg16_setReg16, if_neg (by simpa using hr), State.reg16_advanceIp]

/-- A write of the six status flags leaves the other bits of FLAGS (R31). -/
theorem flagBitsKept_of_setStatus {x : StatusFlags} (h : t.flags = (s.setStatus x).flags) :
    FlagBitsKept statusBits s t := by
  intro k hk
  rw [h]
  exact s.setStatus_bits_kept x (by simpa [statusBits] using hk)

/-- After a body that writes registers and flags alone, the cycle ends past the instruction's own bytes (R103, R104). -/
theorem registerOnly_endCycle {len : Nat} (hlen : 0 < len)
    (h : withoutRegisters t = withoutRegisters (s.advanceIp (len - 1))) : RegisterOnly len s t.endCycle := by
  simp only [withoutRegisters, State.advanceIp, State.mk.injEq, true_and, and_true] at h
  obtain ⟨hip, hes, hcs, hss, hds, hmem, hrun, hticks, houtput, hparams⟩ := h
  have ip : t.ip + BitVec.ofNat 16 1 = s.ip + BitVec.ofNat 16 len := by
    rw [hip, BitVec.add_assoc, ← BitVec.ofNat_add, Nat.sub_add_cancel hlen]
  exact ⟨fun a => congrArg (Memory.read · a) hmem, ⟨hes, hcs, hss, hds⟩, ⟨houtput, hparams⟩,
    ip, congrArg (· + 1) hticks, hrun⟩

end

/-! ### Single bits -/

/-- A bit, by division. -/
theorem getLsbD_eq_decide {w : Nat} (x : BitVec w) (k : Nat) : x.getLsbD k = decide (x.toNat / 2 ^ k % 2 = 1) := by
  rw [← BitVec.testBit_toNat, Nat.testBit_eq_decide_div_mod_eq]

/-- A mask of one bit tests that bit. -/
theorem and_twoPow_ne_zero {w : Nat} (x : BitVec w) (k : Nat) : x &&& BitVec.twoPow w k ≠ 0 ↔ x.getLsbD k = true := by
  rw [BitVec.and_twoPow]
  by_cases hk : x.getLsbD k = true
  · have inside : k < w := BitVec.lt_of_getLsbD hk
    simpa [hk, inside] using fun zero => absurd (congrArg (BitVec.getLsbD · k) zero) (by simp [inside])
  · simp [hk]

/-- The top bit of a byte. -/
theorem getLsbD_seven (b : Byte) : b.getLsbD 7 = decide (b.toNat ≥ 128) := by
  have := b.isLt
  rw [getLsbD_eq_decide, decide_eq_decide]
  omega

/-! ### Result flags -/

/-- The two spellings of parity: a count of bits, and their sum modulo 2 (R30). -/
theorem parity_eq_evenOnes (b : Byte) : parity b = evenOnes b := by
  revert b
  decide

/-- ZF, SF and PF computed from the byte `r` are those of R30. -/
theorem resultFlags8_of {r : Byte} {t : State} (hz : t.flag .zf = decide (r = 0)) (hs : t.flag .sf = r.getLsbD 7)
    (hp : t.flag .pf = parity r) : ResultFlags8 r t := by
  refine ⟨?_, ?_, ?_⟩
  · rw [hz, decide_eq_decide]
    exact BitVec.toNat_inj.symm
  · rw [hs, getLsbD_seven]
  · rw [hp, parity_eq_evenOnes]

/-- The sign test of the two overflow formulas: the mask 0x80 keeps the top bit alone. -/
theorem signMask_eq_topBits (x y : Byte) : decide (x &&& y &&& 0x80#8 ≠ 0) = (x.getLsbD 7 && y.getLsbD 7) := by
  rw [← BitVec.getLsbD_and, Bool.eq_iff_iff, decide_eq_true_iff]
  exact and_twoPow_ne_zero (x &&& y) 7

/-! ### The adder and the subtractor -/

/-- The carry-in as a number is the flag's bit. -/
theorem carryIn_eq_toNat (c : Bool) : carryIn c = c.toNat := by cases c <;> rfl

section
variable (a b : Byte) (c : Bool)

theorem add8_result_toNat : (add8 a b c).result.toNat = (a.toNat + b.toNat + c.toNat) % 256 := by
  rw [← carryIn_eq_toNat]
  exact BitVec.toNat_ofNat _ 8

theorem sub8_result_toNat : (sub8 a b).result.toNat = (256 + a.toNat - b.toNat) % 256 := by
  have difference : (sub8 a b).result.toNat = (256 - b.toNat + a.toNat) % 256 := BitVec.toNat_sub a b
  have := b.isLt
  omega

theorem add8_status_cf : (add8 a b c).status.cf = decide (a.toNat + b.toNat + c.toNat > 0xFF) := by
  rw [← carryIn_eq_toNat]
  rfl

theorem add8_status_af : (add8 a b c).status.af = decide (a.toNat % 16 + b.toNat % 16 + c.toNat > 0x0F) := by
  rw [← carryIn_eq_toNat]
  rfl

/-- OF of an addition: both operands' signs differ from the result's (R120). -/
theorem add8_status_of : (add8 a b c).status.of =
    ((a.getLsbD 7 != (add8 a b c).result.getLsbD 7) && (b.getLsbD 7 != (add8 a b c).result.getLsbD 7)) := by
  rw [Bool.bne_eq_xor, ← BitVec.getLsbD_xor, ← BitVec.getLsbD_xor]
  exact signMask_eq_topBits _ _

/-- OF of a subtraction: the minuend's sign differs from the subtrahend's and from the result's (R121). -/
theorem sub8_status_of : (sub8 a b).status.of =
    ((a.getLsbD 7 != b.getLsbD 7) && (a.getLsbD 7 != (sub8 a b).result.getLsbD 7)) := by
  rw [Bool.bne_eq_xor, ← BitVec.getLsbD_xor, ← BitVec.getLsbD_xor]
  exact signMask_eq_topBits _ _

end

/-- The signed value of a byte, by its top bit. -/
theorem toInt_eq_ite (b : Byte) : b.toInt = if b.toNat ≥ 128 then (b.toNat : Int) - 256 else b.toNat := by
  rw [BitVec.toInt_eq_toNat_cond]
  split <;> split <;> omega

/-- Settles O22: in natural numbers, both sides compare the top bits of the operands and of the result. -/
theorem overflowIsSigned : Obligations.OverflowIsSigned := by
  intro a b c
  have ha := a.isLt
  have hb := b.isLt
  have hc := c.toNat_le
  have sum := add8_result_toNat a b c
  have difference := sub8_result_toNat a b
  rw [add8_status_of, sub8_status_of]
  simp only [getLsbD_seven, toInt_eq_ite, Bool.and_eq_true, bne_iff_ne, ne_eq, decide_eq_decide]
  constructor
  · split <;> split <;> omega
  · split <;> split <;> omega

/-! ### Instructions with a byte result -/

/-- The state after an instruction of `len` bytes that writes the byte `v` to `d` and the status flags `x` and takes
`draws` draws. -/
def byteResult (len draws : Nat) (d : Reg8) (v : Byte) (x : StatusFlags) (s : State) : State :=
  ((((s.advanceIp (len - 1)).setReg8 d v).setStatus x).drew draws).endCycle

section
variable {len draws : Nat} {d : Reg8} {v : Byte} {x : StatusFlags} {s : State}

@[simp] theorem byteResult_reg8 : (byteResult len draws d v x s).reg8 d = v := by simp [byteResult]

theorem byteResult_flagBitsKept : FlagBitsKept statusBits s (byteResult len draws d v x s) :=
  flagBitsKept_of_setStatus (x := x) (by simp [byteResult])

theorem byteResult_bytesKept : BytesKept d s (byteResult len draws d v x s) :=
  bytesKept_of_setReg8 (n := len - 1) (v := v) fun r => by simp [byteResult]

theorem byteResult_registerOnly (hlen : 0 < len) : RegisterOnly len s (byteResult len draws d v x s) :=
  registerOnly_endCycle hlen (by simp)

end

/-- The state after ADD, ADC and SUB with destination `d`: the flags are written first (R123 to R125). -/
def aluResult (d : Reg8) (x : AluResult) (s : State) : State :=
  (((s.advanceIp 1).setStatus x.status).setReg8 d x.result).endCycle

/-- The register and the flags can be written in either order. -/
theorem aluResult_eq (d : Reg8) (x : AluResult) (s : State) :
    aluResult d x s = byteResult 2 0 d x.result x.status s := by
  cases d <;> rfl

section
variable {i : Instr} {s : State} {d : Reg8} {a b v : Byte}

/-- An instruction that leaves the result of `add8` adds (R120). -/
theorem addsTo_of_exec (c : Bool) (h : exec i s = .next (aluResult d (add8 (s.reg8 d) b c) s)) :
    AddsTo i s d b c.toNat := by
  rw [aluResult_eq] at h
  refine ⟨_, h, ?_, ?_, ?_, ?_, ?_, byteResult_bytesKept, byteResult_flagBitsKept,
    byteResult_registerOnly (by decide)⟩
  · rw [byteResult_reg8, add8_result_toNat]
  · exact add8_status_cf ..
  · exact add8_status_af ..
  · rw [byteResult_reg8]
    exact add8_status_of ..
  · rw [byteResult_reg8]
    exact resultFlags8_of rfl rfl rfl

/-- A state that holds the status flags of `sub8` holds those of the subtraction (R121). -/
theorem subtractFlags_of {t : State} (h : t.flags = (s.setStatus (sub8 a b).status).flags) :
    SubtractFlags a b (sub8 a b).result t := by
  have flag (f : Flag) : t.flag f = (s.setStatus (sub8 a b).status).flag f := by
    cases f <;> simp only [State.flag, h]
  refine ⟨flag .cf, flag .af, (flag .of).trans (sub8_status_of a b), ?_⟩
  exact resultFlags8_of (flag .zf) (flag .sf) (flag .pf)

/-- An instruction that leaves the result of `sub8` subtracts (R121). -/
theorem subtractsFrom_of_exec (h : exec i s = .next (aluResult d (sub8 (s.reg8 d) b) s)) :
    SubtractsFrom i s d b := by
  rw [aluResult_eq] at h
  refine ⟨_, h, ?_, ?_, byteResult_bytesKept, byteResult_flagBitsKept,
    byteResult_registerOnly (by decide)⟩
  · rw [byteResult_reg8, sub8_result_toNat]
  · rw [byteResult_reg8]
    exact subtractFlags_of (s := s) (by simp [byteResult])

/-- An instruction that writes the flags of `sub8` and no register compares (R126). -/
theorem compares_of_exec (h : exec i s = .next ((s.advanceIp 1).setStatus (sub8 a b).status).endCycle) :
    Compares i s a b := by
  have difference : BitVec.ofNat 8 (256 + a.toNat - b.toNat) = (sub8 a b).result :=
    BitVec.eq_of_toNat_eq (by rw [sub8_result_toNat, BitVec.toNat_ofNat])
  refine ⟨_, h, ?_, fun r _ => by simp, flagBitsKept_of_setStatus (x := (sub8 a b).status) rfl,
    registerOnly_endCycle (by decide) (by simp)⟩
  rw [difference]
  exact subtractFlags_of (s := s) rfl

/-- An instruction that writes `v` and the flags of `Logic8(v)` is a bitwise one, whatever AF it draws (R122). -/
theorem writesBitwise_of_exec (h : exec i s = .next (byteResult 2 1 d v (logicStatus v (s.drawn 0)) s)) :
    WritesBitwise i s d v :=
  ⟨_, h, byteResult_reg8, rfl, rfl, resultFlags8_of rfl rfl rfl, byteResult_bytesKept,
    byteResult_flagBitsKept, byteResult_registerOnly (by decide)⟩

end

/-! ### The forms of the byte ALU -/

/-- An opcode byte and a register-direct ModR/M byte (R81). -/
theorem opcode_direct (opc : Byte) (reg rm : BitVec 3) : [opc, modrmByte reg rm] = [opc, direct reg rm] := by
  rw [direct_eq_modrmByte]

/-- Settles O17: each form leaves the result of `add8` with no carry-in. -/
theorem addBytes : Obligations.AddBytes := fun _ _ _ _ =>
  ⟨opcode_direct .., opcode_direct .., rfl, addsTo_of_exec false rfl, addsTo_of_exec false rfl,
    addsTo_of_exec false rfl⟩

/-- Settles O18: each form leaves the result of `add8` with CF as the carry-in. -/
theorem addWithCarryBytes : Obligations.AddWithCarryBytes := fun _ _ _ _ =>
  ⟨opcode_direct .., opcode_direct .., rfl, addsTo_of_exec _ rfl, addsTo_of_exec _ rfl, addsTo_of_exec _ rfl⟩

/-- Settles O19: each form leaves the result of `sub8`. -/
theorem subtractBytes : Obligations.SubtractBytes := fun _ _ _ _ =>
  ⟨opcode_direct .., opcode_direct .., rfl, subtractsFrom_of_exec rfl, subtractsFrom_of_exec rfl,
    subtractsFrom_of_exec rfl⟩

/-- Settles O20: each form writes the flags of `sub8` alone. -/
theorem compareBytes : Obligations.CompareBytes := fun _ _ _ _ =>
  ⟨opcode_direct .., opcode_direct .., rfl, compares_of_exec rfl, compares_of_exec rfl, compares_of_exec rfl⟩

/-- Settles O21: each form writes its bitwise result and the flags of `Logic8`. -/
theorem bitwiseBytes : Obligations.BitwiseBytes := fun _ _ _ _ =>
  ⟨opcode_direct .., opcode_direct .., rfl, opcode_direct .., opcode_direct .., rfl, opcode_direct .., opcode_direct ..,
    rfl, writesBitwise_of_exec rfl, writesBitwise_of_exec rfl, writesBitwise_of_exec rfl, writesBitwise_of_exec rfl,
    writesBitwise_of_exec rfl, writesBitwise_of_exec rfl, writesBitwise_of_exec rfl, writesBitwise_of_exec rfl,
    writesBitwise_of_exec rfl⟩

end Sys2Proof.Proofs
end

section
/-! PROOFS. Decimal adjust, rotate through carry, decrement and increment (41_arith_logic.md R130 to R133). -/

namespace Sys2Proof.Proofs

open Sys2Proof Sys2Proof.Machine Sys2Proof.Claims

/-! ### DAA -/

/-- An addition that is made under a condition. -/
theorem toNat_ite_add (p : Prop) [Decidable p] (x y : Byte) :
    (if p then x + y else x).toNat = (x.toNat + if p then y.toNat else 0) % 256 := by
  split
  · exact BitVec.toNat_add x y
  · exact (Nat.mod_eq_of_lt x.isLt).symm

/-- The two corrections of DAA, as numbers (R130). -/
theorem daaResult_toNat (al : Byte) (af cf : Bool) :
    (daaResult al af cf).toNat =
      (al.toNat + (if al.toNat % 16 > 9 ∨ af = true then 0x06 else 0) +
        (if al.toNat > 0x99 ∨ cf = true then 0x60 else 0)) % 256 := by
  simp only [daaResult, daaLow, daaHigh, toNat_ite_add, Nat.mod_add_mod, Bool.or_eq_true, decide_eq_true_eq]
  rfl

/-- The state after DAA (R130). -/
theorem exec_daa (s : State) : ∃ x : StatusFlags,
    x.cf = daaHigh (s.reg8 .al) (s.flag .cf) ∧ (daaLow (s.reg8 .al) (s.flag .af) = true → x.af = true) ∧
      exec .daa s = .next (byteResult 1 5 .al (daaResult (s.reg8 .al) (s.flag .af) (s.flag .cf)) x s) :=
  ⟨_, rfl, fun h => if_pos h, rfl⟩

/-- Settles O23: the corrected AL and CF are those of R130, and AF is a draw only where the low nibble is not corrected. -/
theorem decimalAdjust : Obligations.DecimalAdjust := by
  refine ⟨rfl, fun s => ?_⟩
  obtain ⟨x, hcf, haf, h⟩ := exec_daa s
  refine ⟨_, h, ?_, ?_, fun low => haf ?_, byteResult_bytesKept, byteResult_flagBitsKept,
    byteResult_registerOnly (by decide)⟩
  · rw [byteResult_reg8, daaResult_toNat]
  · refine hcf.trans ?_
    simp [daaHigh]
  · simpa [daaLow] using low

/-! ### RCL -/

/-- One iteration of RCL's loop on the operand and CF as numbers (R131). -/
def rclStep (x : Nat × Nat) : Nat × Nat := ((x.1 * 2 + x.2) % 65536, x.1 / 32768)

/-- The top bit of a word, as a number. -/
theorem topBit_toNat (x : Word) : (x.getLsbD 15).toNat = x.toNat / 32768 := by
  have := x.isLt
  rw [getLsbD_eq_decide, Bool.toNat, Bool.cond_decide]
  split <;> omega

/-- The loop of RCL iterates `rclStep` on the operand and CF (R131). -/
theorem rcl16_toNat (n : Nat) (x : Word) (c : Bool) :
    ((rcl16 n x c).1.toNat, (rcl16 n x c).2.toNat) = rclStep^[n] (x.toNat, c.toNat) := by
  induction n generalizing x c with
  | zero => rfl
  | succ n ih =>
    rw [rcl16, ih, Function.iterate_succ_apply, rclStep, topBit_toNat, BitVec.toNat_ofNat, carryIn_eq_toNat]

/-- The operand and CF that RCL leaves in a state with the count in CL (R131). -/
def rclResult (rm : Reg16) (s : State) : Word × Bool := rcl16 (s.reg8 .cl).toNat (s.reg16 rm) (s.flag .cf)

/-- OF of RCL (R131). -/
def rclOverflowOf (rm : Reg16) (s : State) : Bool :=
  rclOverflow (s.reg8 .cl).toNat (rclResult rm s).1 (rclResult rm s).2 (s.drawn 0)

/-- The state after RCL (R131). -/
def rclState (rm : Reg16) (s : State) : State :=
  let x := rclResult rm s
  ((((s.advanceIp 1).setReg16 rm x.1).setCarryOverflow x.2 (rclOverflowOf rm s)).drew 1).endCycle

theorem exec_rcl (rm : Reg16) (s : State) : exec (.rclRm16Cl rm) s = .next (rclState rm s) := rfl

section
variable (rm : Reg16) (s : State)

theorem rclState_reg16 : (rclState rm s).reg16 rm = (rclResult rm s).1 := by simp [rclState]

theorem rclState_flag_cf : (rclState rm s).flag .cf = (rclResult rm s).2 := rfl

theorem rclState_flag_of : (rclState rm s).flag .of = rclOverflowOf rm s := rfl

theorem rclState_wordsKept : WordsKept [rm] s (rclState rm s) :=
  wordsKept_of_setReg16 (n := 1) (v := (rclResult rm s).1) fun r => by simp [rclState]

theorem rclState_flagBitsKept : FlagBitsKept [0, 11] s (rclState rm s) := by
  intro k hk
  have flags : (rclState rm s).flags = (s.setCarryOverflow (rclResult rm s).2 (rclOverflowOf rm s)).flags := by
    simp [rclState]
  rw [flags]
  exact s.setCarryOverflow_bits_kept _ _ (by simpa using hk)

theorem rclState_registerOnly : RegisterOnly 2 s (rclState rm s) := registerOnly_endCycle (by decide) (by simp)

end

/-- Settles O24: the loop iterates `rclStep`, and OF is a draw only at count 0. -/
theorem rotateLeftThroughCarry : Obligations.RotateLeftThroughCarry := by
  intro s rm
  refine ⟨opcode_direct .., rclState rm s, exec_rcl rm s, ?_, fun one => ?_, fun many => ?_,
    rclState_wordsKept rm s, rclState_flagBitsKept rm s, rclState_registerOnly rm s⟩
  · rw [rclState_reg16, rclState_flag_cf]
    exact rcl16_toNat ..
  · rw [rclState_flag_of, rclState_flag_cf, rclState_reg16]
    exact if_pos one
  · rw [rclState_flag_of, rclOverflowOf, rclOverflow, if_neg (by omega), if_pos many]

/-- Rotation of the 17-bit number `v` to the left by `k` places. -/
def rotate17 (k v : Nat) : Nat := v * 2 ^ k % 131072 + v * 2 ^ k / 131072

theorem rotate17_zero {v : Nat} (hv : v < 131072) : rotate17 0 v = v := by
  unfold rotate17
  omega

/-- A whole turn. -/
theorem rotate17_seventeen (v : Nat) : rotate17 17 v = v := by
  unfold rotate17
  omega

theorem rotate17_one (v : Nat) : rotate17 1 v = v * 2 % 131072 + v * 2 / 131072 := rfl

/-- One place after `k` places: the low `k + 1` bits of what stays in the 17 are 0, so the bits that left at the top fit
there. -/
theorem rotate17_one_rotate17 {k v : Nat} (hk : k < 17) (hv : v < 131072) :
    rotate17 1 (rotate17 k v) = rotate17 (k + 1) v := by
  have size : 2 ^ (k + 1) ∣ 131072 := Nat.pow_dvd_pow (n := 17) 2 hk
  have free : v * 2 ^ (k + 1) % 131072 + 2 ^ (k + 1) ≤ 131072 := by
    have multiple : 2 ^ (k + 1) ∣ 131072 - v * 2 ^ (k + 1) % 131072 :=
      Nat.dvd_sub size ((Nat.dvd_mod_iff size).2 (Nat.dvd_mul_left ..))
    have := Nat.le_of_dvd (by omega) multiple
    omega
  have moved : v * 2 ^ k / 131072 < 2 ^ k :=
    Nat.div_lt_of_lt_mul (Nat.mul_lt_mul_of_pos_right hv (Nat.two_pow_pos k))
  rw [rotate17_one, rotate17, rotate17]
  rw [pow_succ, ← Nat.mul_assoc] at free ⊢
  omega

/-- The 17 bits CF : operand as one number. -/
def carryAndWord (x : Word × Bool) : Nat := x.2.toNat * 65536 + x.1.toNat

theorem carryAndWord_lt (x : Word × Bool) : carryAndWord x < 131072 := by
  have := x.1.isLt
  have := x.2.toNat_le
  unfold carryAndWord
  omega

/-- One more iteration of RCL's loop rotates the 17 bits by one place (R131). -/
theorem carryAndWord_rcl16_succ (n : Nat) (x : Word) (c : Bool) :
    carryAndWord (rcl16 (n + 1) x c) = rotate17 1 (carryAndWord (rcl16 n x c)) := by
  rw [rcl16_succ]
  obtain ⟨y, carry⟩ := rcl16 n x c
  have := y.isLt
  simp only [carryAndWord, topBit_toNat, carryIn_eq_toNat, BitVec.toNat_ofNat, rotate17_one]
  cases carry
  · rw [Bool.toNat_false]
    omega
  · rw [Bool.toNat_true]
    omega

/-- The loop of RCL rotates the 17 bits CF : operand by the count modulo 17. -/
theorem carryAndWord_rcl16 (n : Nat) (x : Word) (c : Bool) :
    carryAndWord (rcl16 n x c) = rotate17 (n % 17) (carryAndWord (x, c)) := by
  have bound := carryAndWord_lt (x, c)
  induction n with
  | zero => exact (rotate17_zero bound).symm
  | succ n ih =>
    rw [carryAndWord_rcl16_succ, ih, rotate17_one_rotate17 (Nat.mod_lt n (by decide)) bound]
    by_cases turn : n % 17 = 16
    · rw [turn, rotate17_seventeen, show (n + 1) % 17 = 0 by omega, rotate17_zero bound]
    · rw [show (n + 1) % 17 = n % 17 + 1 by omega]

/-- Settles O25: the loop of RCL is a rotation of the 17 bits. -/
theorem rotateIsSeventeenBits : Obligations.RotateIsSeventeenBits := by
  intro s t rm h
  obtain rfl : rclState rm s = t := by simpa [exec_rcl] using h
  rw [rclState_reg16, rclState_flag_cf]
  exact carryAndWord_rcl16 ..

/-! ### DEC -/

section
variable (a : Word) (cf : Bool)

/-- The decremented word, as a number (R132). -/
theorem pred_toNat : (a - 1).toNat = (a.toNat + 65535) % 65536 := by
  rw [BitVec.toNat_sub, Nat.add_comm]
  rfl

/-- AF of DEC: a borrow into bit 4, that is, a low nibble of 0 (R132). -/
theorem decStatus_af : (decStatus a cf).af = decide (a.toNat % 16 = 0) := by
  have mask : (a ^^^ 0x0001#16 ^^^ (a - 1)) &&& 0x0010#16 ≠ 0 ↔ (a ^^^ 0x0001#16 ^^^ (a - 1)).getLsbD 4 = true :=
    and_twoPow_ne_zero _ 4
  have one : (0x0001#16).getLsbD 4 = false := rfl
  refine decide_eq_decide.2 (mask.trans ?_)
  rw [BitVec.getLsbD_xor, BitVec.getLsbD_xor, one, Bool.xor_false, Bool.xor_iff_ne, ne_eq, getLsbD_eq_decide,
    getLsbD_eq_decide, decide_eq_decide, pred_toNat]
  omega

/-- OF of DEC: the one word whose predecessor has another sign and that is negative itself (R132). -/
theorem decStatus_of : (decStatus a cf).of = decide (a.toNat = 0x8000) := by
  have mask : (a ^^^ 0x0001#16) &&& (a ^^^ (a - 1)) &&& 0x8000#16 ≠ 0 ↔
      ((a ^^^ 0x0001#16) &&& (a ^^^ (a - 1))).getLsbD 15 = true := and_twoPow_ne_zero _ 15
  have one : (0x0001#16).getLsbD 15 = false := rfl
  refine decide_eq_decide.2 (mask.trans ?_)
  have := a.isLt
  rw [BitVec.getLsbD_and, BitVec.getLsbD_xor, BitVec.getLsbD_xor, one, Bool.xor_false, Bool.and_eq_true,
    Bool.xor_iff_ne, ne_eq, getLsbD_eq_decide, getLsbD_eq_decide, decide_eq_decide, decide_eq_true_iff, pred_toNat]
  omega

/-- ZF of DEC (R132). -/
theorem decStatus_zf : (decStatus a cf).zf = decide ((a - 1).toNat = 0) :=
  decide_eq_decide.2 BitVec.toNat_inj.symm

/-- SF of DEC (R132). -/
theorem decStatus_sf : (decStatus a cf).sf = decide ((a - 1).toNat ≥ 0x8000) := by
  have bit : (decStatus a cf).sf = decide ((a - 1).toNat / 2 ^ 15 % 2 = 1) := getLsbD_eq_decide (a - 1) 15
  have := (a - 1).isLt
  rw [bit, decide_eq_decide]
  omega

/-- PF of DEC, from the low byte (R132). -/
theorem decStatus_pf : (decStatus a cf).pf = evenOnes (BitVec.ofNat 8 (a - 1).toNat) := by
  have low : BitVec.ofNat 8 (a - 1).toNat = lowByte (a - 1) :=
    BitVec.eq_of_toNat_eq (by rw [lowByte_toNat, BitVec.toNat_ofNat])
  rw [low]
  exact parity_eq_evenOnes (lowByte (a - 1))

end

/-- The state after DEC (R132). -/
def decState (r : Reg16) (s : State) : State :=
  ((((s.advanceIp 0).setReg16 r (s.reg16 r - 1)).setStatus (decStatus (s.reg16 r) (s.drawn 0))).drew 1).endCycle

theorem exec_dec (r : Reg16) (s : State) : exec (.decR16 r) s = .next (decState r s) := rfl

theorem decState_reg16 (r : Reg16) (s : State) : (decState r s).reg16 r = s.reg16 r - 1 := by simp [decState]

/-- The two spellings of an opcode byte with a register field, by numbers and by bit fields (R81). -/
theorem withField_eq_opcodeWithR (base : BitVec 5) (r : BitVec 3) :
    withField (base.toNat * 8) r = opcodeWithR base r := by
  revert base r
  decide

/-- Settles O26: the flags are those of `decStatus`, in which CF alone is a draw. -/
theorem decrementWord : Obligations.DecrementWord := by
  intro s r
  have wordsKept : WordsKept [r] s (decState r s) :=
    wordsKept_of_setReg16 (n := 0) (v := s.reg16 r - 1) fun q => by simp [decState]
  have flagBitsKept : FlagBitsKept statusBits s (decState r s) :=
    flagBitsKept_of_setStatus (x := decStatus (s.reg16 r) (s.drawn 0)) (by simp [decState])
  have opcode : withField 0x48 r.field = opcodeWithR 0b01001 r.field := withField_eq_opcodeWithR 0b01001 r.field
  refine ⟨by rw [opcode]; rfl, decState r s, exec_dec r s, ?_⟩
  rw [decState_reg16]
  exact ⟨pred_toNat _, decStatus_of _ (s.drawn 0), decStatus_af _ (s.drawn 0), decStatus_zf _ (s.drawn 0),
    decStatus_sf _ (s.drawn 0), decStatus_pf _ (s.drawn 0), wordsKept, flagBitsKept,
    registerOnly_endCycle (by decide) (by simp)⟩

/-! ### INC -/

/-- The state after INC (R133). -/
def incState (d : Reg8) (s : State) : State := ((s.advanceIp 1).setReg8 d (s.reg8 d + 1)).endCycle

theorem exec_inc (d : Reg8) (s : State) : exec (.incRm8 d) s = .next (incState d s) := rfl

/-- Settles O27: INC writes one byte register and nothing else. -/
theorem incrementByte : Obligations.IncrementByte := by
  intro s d
  refine ⟨opcode_direct .., incState d s, exec_inc d s, ?_,
    bytesKept_of_setReg8 (n := 1) (v := s.reg8 d + 1) fun r => by simp [incState], by simp [incState],
    registerOnly_endCycle (by decide) (by simp)⟩
  simp [incState, BitVec.toNat_add]

end Sys2Proof.Proofs
end

section
/-! PROOFS. The instructions that access memory: the fault of an access (20_memory.md R52 to R55), the first fault of a
body's accesses (60_exceptions.md R264), what a word store leaves, and the frame of the words and memory written. -/

namespace Sys2Proof.Proofs

open Sys2Proof Sys2Proof.Machine Sys2Proof.Claims

/-! ### Byte accesses -/

/-- A byte load raises the fault of its access, or else answers the byte (R52, R55). -/
theorem segRead8_eq (m : Memory) (s o : Word) :
    segRead8 m s o = (byteFault s o).elim (.ok (m.read (lin s o))) .error := by
  unfold segRead8 memRead8 byteFault
  split <;> rfl

/-- A byte store raises the fault of its access, or else writes the byte (R52, R55). -/
theorem segWrite8_eq (m : Memory) (s o : Word) (v : Byte) :
    segWrite8 m s o v = (byteFault s o).elim (.ok (m.write (lin s o) v)) .error := by
  unfold segWrite8 memWrite8 byteFault
  split <;> rfl

/-! ### The first fault of a body's accesses -/

/-- The answer of a computation that makes the accesses of `l` in order: the first fault, or else `a`. -/
def checked {α : Type} (l : List (Option Fatal)) (a : α) : Except Fatal α := (firstFault l).elim (.ok a) .error

/-- An access, then a computation that makes the accesses of `l`. -/
theorem access_bind {α β : Type} {f : Option Fatal} {v : α} {g : α → Except Fatal β} {l : List (Option Fatal)} {b : β}
    (h : g v = checked l b) : (f.elim (.ok v) .error >>= g) = checked (f :: l) b := by
  cases f with
  | none => exact h
  | some c => rfl

/-- Executing `i` makes the accesses of `l`: it faults with the first fault, or else completes with the state `u` before the
end of the cycle (R104, R265). -/
def Accesses (i : Instr) (s : State) (l : List (Option Fatal)) (u : State) : Prop :=
  exec i s = (firstFault l).elim (.next u.endCycle) fun c => .fault (.fatal c s.cs s.ip)

section
variable {i : Instr} {s u : State} {l : List (Option Fatal)}

/-- An instruction of one byte, by its body. -/
theorem accesses_of_cycle {body : State → Except Fatal State} (hexec : exec i s = cycle 1 body s)
    (hbody : body s = checked l u) : Accesses i s l u := by
  have start : s.advanceIp (1 - 1) = s := by simp [State.advanceIp]
  rw [← start] at hbody
  rw [Accesses, hexec]
  unfold checked at hbody
  cases hfault : firstFault l with
  | none => exact cycle_of_ok (by rw [hbody, hfault]; rfl)
  | some c => exact cycle_of_error (by rw [hbody, hfault]; rfl)

theorem Accesses.faultsWith (h : Accesses i s l u) : FaultsWith i s l := by
  intro c hc
  rw [h, hc]
  rfl

theorem Accesses.next (h : Accesses i s l u) (hnone : ∀ f ∈ l, f = none) : exec i s = .next u.endCycle := by
  have noFault : firstFault l = none := List.findSome?_eq_none_iff.2 hnone
  rw [h, noFault]
  rfl

end

/-! ### What a store leaves in memory -/

/-- After a store of a byte it is there, and every other byte reads as before (R60). -/
theorem write_reads {m : Memory} (a : Nat) (v : Byte) (hm : m.wf = true) :
    (m.write a v).read a = v ∧ ∀ c, c ≠ a → (m.write a v).read c = m.read c :=
  ⟨(Memory.read_write hm a).trans (if_pos rfl), fun c hc => (Memory.read_write hm c).trans (if_neg hc)⟩

/-- The word at `a`, low byte at the lower address, as a load answers it (R53). -/
def loadWord (m : Memory) (a : Nat) : Word := wordOf (m.read a) (m.read (a + 1))

theorem loadWord_toNat (m : Memory) (a : Nat) : (loadWord m a).toNat = wordAt m a := wordOf_toNat ..

/-- The memory after a store of the word `v` at `a` (R54). -/
def storeWord (m : Memory) (a : Nat) (v : Word) : Memory := (m.write a (lowByte v)).write (a + 1) (highByte v)

/-- After a store without a fault the word is there, and every other byte reads as before (R60). -/
theorem storeWord_reads {m : Memory} {seg off : Word} (v : Word) (hm : m.wf = true) (hnone : wordFault seg off = none) :
    wordAt (storeWord m (lin seg off) v) (lin seg off) = v.toNat ∧
      ∀ a, a ≠ lin seg off → a ≠ lin seg off + 1 → (storeWord m (lin seg off) v).read a = m.read a := by
  obtain ⟨m', stored, -, low, high, kept⟩ := (wordStoreThenLoad m seg off v hm).2 hnone
  obtain ⟨-, -, rfl⟩ := segWrite16_ok.1 stored
  refine ⟨?_, kept⟩
  rw [storeWord, wordAt, low, high]
  exact Nat.mod_add_div ..

/-! ### Frames of memory and word writes -/

/-- The state without the general and pointer/index registers and memory, and without the counter of draws. -/
def withoutWordsAndMemory (s : State) : State := { withoutRegisters s with flags := s.flags, mem := [] }

/-- From `s`, writes of memory and of the words `ws` lead to a state. -/
inductive Writes (ws : List Reg16) (s : State) : State → Prop where
  | start : Writes ws s s
  | mem {t : State} (h : Writes ws s t) (m : Memory) : Writes ws s (t.setMem m)
  | word {t : State} (h : Writes ws s t) {r : Reg16} (hr : r ∈ ws) (v : Word) : Writes ws s (t.setReg16 r v)

section
variable {ws : List Reg16} {s t : State}

theorem Writes.wordsKept (h : Writes ws s t) : WordsKept ws s t := by
  intro q hq
  induction h with
  | start => rfl
  | mem _ m ih => rw [State.reg16_setMem, ih]
  | word _ hr v ih => rw [State.reg16_setReg16, if_neg (ne_of_mem_of_not_mem hr hq).symm, ih]

theorem Writes.rest (h : Writes ws s t) : withoutWordsAndMemory t = withoutWordsAndMemory s := by
  induction h with
  | start => rfl
  | mem _ m ih => exact ih
  | word _ hr v ih =>
    rw [withoutWordsAndMemory, withoutRegisters_setReg16, State.setReg16_flags]
    exact ih

/-- An instruction of one byte that writes memory and the words `ws` leaves everything else and ends at the next byte
(R104). -/
theorem Writes.frame (h : Writes ws s t) :
    WordsKept ws s t.endCycle ∧ SameSegments s t.endCycle ∧ t.endCycle.flags = s.flags ∧ OutsideKept s t.endCycle ∧
      EndsAt (s.ip + 1) s t.endCycle := by
  have rest := h.rest
  simp only [withoutWordsAndMemory, withoutRegisters, State.mk.injEq, true_and, and_true] at rest
  obtain ⟨hip, hes, hcs, hss, hds, hflags, hrun, hticks, houtput, hparams⟩ := rest
  exact ⟨fun r hr => (t.reg16_endCycle r).trans (h.wordsKept r hr), ⟨hes, hcs, hss, hds⟩, hflags, ⟨houtput, hparams⟩,
    congrArg (· + 1) hip, congrArg (· + 1) hticks, hrun⟩

end

end Sys2Proof.Proofs
end

section
/-! PROOFS. String move, load and store (42_string.md R160 to R166). -/

namespace Sys2Proof.Proofs

open Sys2Proof Sys2Proof.Machine Sys2Proof.Claims

/-! ### Moves -/

/-- The index step of the moves, as a number (R160). -/
theorem stepIndex_toNat (s : State) (i w : Word) : (stepIndex (s.flag .df) i w).toNat = stepped s i w.toNat := by
  unfold stepIndex stepped
  split
  · bv_omega
  · exact BitVec.toNat_add i w

/-- The state that MOVSB (`w` = 1) and MOVSW (`w` = 2) leave before the end of the cycle, with the memory `m`. -/
def movsState (m : Memory) (w : Word) (s : State) : State :=
  ((s.setMem m).setReg16 .si (stepIndex (s.flag .df) s.si w)).setReg16 .di (stepIndex (s.flag .df) s.di w)

theorem movsState_writes (m : Memory) (w : Word) (s : State) : Writes [.si, .di] s (movsState m w s) :=
  ((Writes.start.mem m).word (by decide) _).word (by decide) _

/-- MOVSB loads a byte and stores it (R161). -/
theorem movsb_accesses (s : State) : Accesses .movsb s [byteFault s.ds s.si, byteFault s.es s.di]
    (movsState (s.mem.write (lin s.es s.di) (s.mem.read (lin s.ds s.si))) 1 s) := by
  refine accesses_of_cycle rfl ?_
  simp only [movsbBody, segRead8_eq, segWrite8_eq]
  exact access_bind (access_bind rfl)

/-- MOVSW loads a word and stores it (R162). -/
theorem movsw_accesses (s : State) : Accesses .movsw s [wordFault s.ds s.si, wordFault s.es s.di]
    (movsState (storeWord s.mem (lin s.es s.di) (loadWord s.mem (lin s.ds s.si))) 2 s) := by
  refine accesses_of_cycle rfl ?_
  simp only [movswBody, segRead16_eq, segWrite16_eq]
  exact access_bind (access_bind rfl)

/-- Settles O32: the two accesses in order, one byte written, and both indexes stepped by `stepIndex`. -/
theorem moveStringByte : Obligations.MoveStringByte := by
  refine ⟨rfl, fun s => ⟨(movsb_accesses s).faultsWith, fun hm hread hwrite => ?_⟩⟩
  obtain ⟨stored, kept⟩ := write_reads (lin s.es s.di) (s.mem.read (lin s.ds s.si)) hm
  exact ⟨_, (movsb_accesses s).next (by simp [hread, hwrite]), stored, kept, stepIndex_toNat s s.si 1,
    stepIndex_toNat s s.di 1, (movsState_writes _ 1 s).frame⟩

/-- Settles O33: the two accesses in order, one word written, and both indexes stepped by `stepIndex`. -/
theorem moveStringWord : Obligations.MoveStringWord := by
  refine ⟨rfl, fun s => ⟨(movsw_accesses s).faultsWith, fun hm hread hwrite => ?_⟩⟩
  obtain ⟨stored, kept⟩ := storeWord_reads (loadWord s.mem (lin s.ds s.si)) hm hwrite
  exact ⟨_, (movsw_accesses s).next (by simp [hread, hwrite]), stored.trans (loadWord_toNat ..), kept,
    stepIndex_toNat s s.si 2, stepIndex_toNat s s.di 2, (movsState_writes _ 2 s).frame⟩

/-! ### Loads -/

/-- The state that LODSB (`w` = 1) and LODSW (`w` = 2) leave before the end of the cycle, with AX = `v`. -/
def lodsState (v w : Word) (s : State) : State := (s.setReg16 .ax v).setReg16 .si (s.si + w)

theorem lodsState_writes (v w : Word) (s : State) : Writes [.ax, .si] s (lodsState v w s) :=
  (Writes.start.word (by decide) v).word (by decide) _

/-- LODSB loads a byte into the low half of AX (R163). -/
theorem lodsb_accesses (s : State) : Accesses .lodsb s [byteFault s.ds s.si]
    (lodsState (withLow s.ax (s.mem.read (lin s.ds s.si))) 1 s) := by
  refine accesses_of_cycle rfl ?_
  simp only [lodsbBody, segRead8_eq]
  exact access_bind rfl

/-- LODSW loads a word into AX (R164). -/
theorem lodsw_accesses (s : State) : Accesses .lodsw s [wordFault s.ds s.si]
    (lodsState (loadWord s.mem (lin s.ds s.si)) 2 s) := by
  refine accesses_of_cycle rfl ?_
  simp only [lodswBody, segRead16_eq]
  exact access_bind rfl

/-- Settles O34: one access, AL or AX written, and SI stepped up. -/
theorem loadString : Obligations.LoadString := by
  refine ⟨rfl, rfl, fun s => ⟨(lodsb_accesses s).faultsWith, (lodsw_accesses s).faultsWith, fun hread => ?byte,
    fun hread => ?word⟩⟩
  case byte =>
    obtain ⟨words, segments, flags, outside, ends⟩ :=
      (lodsState_writes (withLow s.ax (s.mem.read (lin s.ds s.si))) 1 s).frame
    exact ⟨_, (lodsb_accesses s).next (by simp [hread]), lowByte_wordOf .., highByte_wordOf .., rfl,
      words, segments, flags, fun _ => rfl, outside, ends⟩
  case word =>
    obtain ⟨words, segments, flags, outside, ends⟩ :=
      (lodsState_writes (loadWord s.mem (lin s.ds s.si)) 2 s).frame
    exact ⟨_, (lodsw_accesses s).next (by simp [hread]), loadWord_toNat .., rfl,
      words, segments, flags, fun _ => rfl, outside, ends⟩

/-! ### Stores -/

/-- The state that STOSB (`w` = 1) and STOSW (`w` = 2) leave before the end of the cycle, with the memory `m`. -/
def stosState (m : Memory) (w : Word) (s : State) : State := (s.setMem m).setReg16 .di (s.di + w)

theorem stosState_writes (m : Memory) (w : Word) (s : State) : Writes [.di] s (stosState m w s) :=
  (Writes.start.mem m).word (by decide) _

/-- STOSB stores AL (R165). -/
theorem stosb_accesses (s : State) : Accesses .stosb s [byteFault s.es s.di]
    (stosState (s.mem.write (lin s.es s.di) (s.reg8 .al)) 1 s) := by
  refine accesses_of_cycle rfl ?_
  simp only [stosbBody, segWrite8_eq]
  exact access_bind rfl

/-- STOSW stores AX (R166). -/
theorem stosw_accesses (s : State) : Accesses .stosw s [wordFault s.es s.di]
    (stosState (storeWord s.mem (lin s.es s.di) s.ax) 2 s) := by
  refine accesses_of_cycle rfl ?_
  simp only [stoswBody, segWrite16_eq]
  exact access_bind rfl

/-- Settles O35: one access, the byte AL or the word AX written, and DI stepped up. -/
theorem storeString : Obligations.StoreString := by
  refine ⟨rfl, rfl, fun s => ⟨(stosb_accesses s).faultsWith, (stosw_accesses s).faultsWith, fun hm hwrite => ?byte,
    fun hm hwrite => ?word⟩⟩
  case byte =>
    obtain ⟨stored, kept⟩ := write_reads (lin s.es s.di) (s.reg8 .al) hm
    exact ⟨_, (stosb_accesses s).next (by simp [hwrite]), stored, kept, rfl, (stosState_writes _ 1 s).frame⟩
  case word =>
    obtain ⟨stored, kept⟩ := storeWord_reads s.ax hm hwrite
    exact ⟨_, (stosw_accesses s).next (by simp [hwrite]), stored, kept, rfl, (stosState_writes _ 2 s).frame⟩

end Sys2Proof.Proofs
end

section
/-! PROOFS. The stack: PUSH, POP, PUSHA, PUSHF and POPF (43_stack.md R180 to R186). -/

namespace Sys2Proof.Proofs

open Sys2Proof Sys2Proof.Machine Sys2Proof.Claims

/-! ### One push -/

/-- The state after a push of `v` (R180). -/
def pushed (v : Word) (s : State) : State :=
  (s.setReg16 .sp (s.sp - 2)).setMem (storeWord s.mem (lin s.ss (s.sp - 2)) v)

/-- A push raises the fault of its one access, or else lowers SP and stores the word (R180). -/
theorem push16_eq (v : Word) (s : State) :
    push16 v s = (wordFault s.ss (s.sp - 2)).elim (.ok (pushed v s)) .error := by
  rw [push16, segWrite16_eq]
  cases wordFault s.ss (s.sp - 2) <;> rfl

/-- A computation that is one access. -/
theorem checked_singleton {α : Type} (f : Option Fatal) (a : α) : checked [f] a = f.elim (.ok a) .error := by
  cases f <;> rfl

/-- Executing `i` pushes `v` and changes nothing else (R180). -/
def PushesWord (i : Instr) (v : Word) (s : State) : Prop :=
  FaultsWith i s [wordFault s.ss (s.sp - 2)] ∧
  (s.MemOk → wordFault s.ss (s.sp - 2) = none → ∃ t, exec i s = .next t ∧
    t.sp = s.sp - 2 ∧ wordAt t.mem (lin s.ss (s.sp - 2)) = v.toNat ∧
    MemoryKeptOutsideWord (lin s.ss (s.sp - 2)) s t ∧
    WordsKept [.sp] s t ∧ SameSegments s t ∧ t.flags = s.flags ∧ OutsideKept s t ∧ EndsAt (s.ip + 1) s t)

/-- An instruction of one byte whose body is a push. -/
theorem pushesWord_of_cycle {i : Instr} {v : Word} {s : State} {body : State → Except Fatal State}
    (hexec : exec i s = cycle 1 body s) (hbody : body s = push16 v s) : PushesWord i v s := by
  have accesses : Accesses i s [wordFault s.ss (s.sp - 2)] (pushed v s) :=
    accesses_of_cycle hexec (by rw [hbody, push16_eq, checked_singleton])
  have writes : Writes [.sp] s (pushed v s) := (Writes.start.word (by decide) _).mem _
  refine ⟨accesses.faultsWith, fun hm hnone => ?_⟩
  obtain ⟨stored, kept⟩ := storeWord_reads v hm hnone
  exact ⟨_, accesses.next (List.forall_mem_singleton.2 hnone), rfl, stored, kept, writes.frame⟩

/-- PUSH is a push of the operand as it reads after SP was lowered (R182, D34). -/
theorem pushBody_eq (r : Reg16) (s : State) : pushBody r s = push16 ((s.setReg16 .sp (s.sp - 2)).reg16 r) s := by
  unfold pushBody push16
  change (segWrite16 _ _ _ ((s.setReg16 .sp (s.sp - 2)).reg16 r) >>= _) = _
  cases segWrite16 s.mem s.ss (s.sp - 2) ((s.setReg16 .sp (s.sp - 2)).reg16 r) <;> rfl

/-- Settles O36: PUSH is one push of the operand, which for SP is the lowered SP. -/
theorem pushWord : Obligations.PushWord := by
  intro s r
  have opcode : withField 0x50 r.field = opcodeWithR 0b01010 r.field := withField_eq_opcodeWithR 0b01010 r.field
  have operand : (s.setReg16 .sp (s.sp - 2)).reg16 r = if r = .sp then s.sp - 2 else s.reg16 r :=
    s.reg16_setReg16 .sp r (s.sp - 2)
  exact ⟨by rw [opcode]; rfl, pushesWord_of_cycle rfl ((pushBody_eq r s).trans (by rw [operand]))⟩

/-- Settles O39: PUSHF is one push of the word FLAGS. -/
theorem pushFlags : Obligations.PushFlags := ⟨rfl, fun _ => pushesWord_of_cycle rfl rfl⟩

/-! ### A sequence of pushes -/

/-- The offset of the `k`-th word pushed from a state with the given SP (R180). -/
def slot (sp : Word) (k : Nat) : Word := sp - BitVec.ofNat 16 (2 * k + 2)

/-- After one push the next one's slot is the first. -/
theorem slot_succ (sp : Word) (k : Nat) : slot sp (k + 1) = slot (sp - 2) k := by
  unfold slot
  bv_omega

/-- The words at the first slot and at a later one have no byte in common, as long as the offsets do not come round. -/
theorem slot_zero_apart (seg sp : Word) {k : Nat} (hk : k < 32766) :
    lin seg (slot sp 0) ≠ lin seg (slot sp (k + 1)) ∧ lin seg (slot sp 0) ≠ lin seg (slot sp (k + 1)) + 1 ∧
      lin seg (slot sp 0) + 1 ≠ lin seg (slot sp (k + 1)) := by
  unfold lin slot
  bv_omega

/-- The state after pushes of `vs` in order. -/
def pushedAll (vs : List Word) (s : State) : State := vs.foldl (fun t v => pushed v t) s

/-- The accesses that pushes of `n` words make. -/
def pushFaults (n : Nat) (s : State) : List (Option Fatal) := (List.range n).map fun k => wordFault s.ss (slot s.sp k)

theorem pushFaults_succ (n : Nat) (v : Word) (s : State) :
    pushFaults (n + 1) s = wordFault s.ss (s.sp - 2) :: pushFaults n (pushed v s) := by
  simp only [pushFaults, List.range_succ_eq_map, List.map_cons, List.map_map, Function.comp_def, slot_succ]
  rfl

/-- Pushes in order raise the first fault of their accesses (R180, R264). -/
theorem foldlM_push16_eq (vs : List Word) (s : State) :
    vs.foldlM (fun t v => push16 v t) s = checked (pushFaults vs.length s) (pushedAll vs s) := by
  induction vs generalizing s with
  | nil => rfl
  | cons v vs ih =>
    rw [List.foldlM_cons, push16_eq, List.length_cons, pushFaults_succ _ v]
    exact access_bind (ih (pushed v s))

theorem pushedAll_writes {s t : State} (h : Writes [.sp] s t) (vs : List Word) : Writes [.sp] s (pushedAll vs t) := by
  induction vs generalizing t with
  | nil => exact h
  | cons v vs ih => exact ih ((h.word (by decide) _).mem _)

theorem pushedAll_sp (vs : List Word) (s : State) :
    (pushedAll vs s).sp = s.sp - BitVec.ofNat 16 (2 * vs.length) := by
  induction vs generalizing s with
  | nil => exact (BitVec.sub_zero s.sp).symm
  | cons v vs ih =>
    refine (ih (pushed v s)).trans ?_
    have lowered : (pushed v s).sp = s.sp - 2 := rfl
    rw [lowered, List.length_cons]
    bv_omega

/-- A store without a fault keeps the canonical form. -/
theorem storeWord_wf {m : Memory} {seg off : Word} (v : Word) (hm : m.wf = true) (hnone : wordFault seg off = none) :
    (storeWord m (lin seg off) v).wf = true := by
  have stored : segWrite16 m seg off v = .ok (storeWord m (lin seg off) v) := by
    rw [segWrite16_eq, hnone]
    rfl
  exact segWrite16_wf stored hm

/-- Every word pushed without a fault stands in its slot, and every byte outside the slots reads as before: a later push
misses the words before it. -/
theorem pushedAll_reads {vs : List Word} {s : State} (hlen : vs.length < 32768) (hm : s.MemOk)
    (hnone : ∀ k < vs.length, wordFault s.ss (slot s.sp k) = none) :
    (∀ k (h : k < vs.length), wordAt (pushedAll vs s).mem (lin s.ss (slot s.sp k)) = vs[k].toNat) ∧
    ∀ a, (∀ k < vs.length, a ≠ lin s.ss (slot s.sp k) ∧ a ≠ lin s.ss (slot s.sp k) + 1) →
      (pushedAll vs s).mem.read a = s.mem.read a := by
  induction vs generalizing s with
  | nil => exact ⟨fun k h => absurd h k.not_lt_zero, fun a _ => rfl⟩
  | cons v vs ih =>
    rw [List.length_cons] at hlen hnone
    have first : wordFault s.ss (s.sp - 2) = none := hnone 0 (Nat.zero_lt_succ _)
    obtain ⟨stored, kept⟩ := storeWord_reads v hm first
    have next (k : Nat) : slot (pushed v s).sp k = slot s.sp (k + 1) := (slot_succ s.sp k).symm
    obtain ⟨ihStored, ihKept⟩ := ih (s := pushed v s) (by omega) (storeWord_wf v hm first) fun k hk => by
      rw [next]
      exact hnone (k + 1) (by omega)
    simp only [next] at ihStored ihKept
    refine ⟨fun k hk => ?_, fun a ha => ?_⟩
    · cases k with
      | zero =>
        have apart (k : Nat) (hk : k < vs.length) := slot_zero_apart s.ss s.sp (k := k) (by omega)
        have low := ihKept (lin s.ss (slot s.sp 0)) fun k hk => ⟨(apart k hk).1, (apart k hk).2.1⟩
        have high := ihKept (lin s.ss (slot s.sp 0) + 1) fun k hk =>
          ⟨(apart k hk).2.2, fun same => (apart k hk).1 (Nat.succ.inj same)⟩
        refine Eq.trans ?_ stored
        exact congrArg₂ (fun x y : Byte => x.toNat + 256 * y.toNat) low high
      | succ k => exact ihStored k (by simpa using hk)
    · obtain ⟨low, high⟩ := ha 0 (by simp)
      exact (ihKept a fun k hk => ha (k + 1) (by simpa using hk)).trans (kept a low high)

/-- The eight words of PUSHA in the order of their pushes (R184). -/
def pushaWords (s : State) : List Word := [s.ax, s.cx, s.dx, s.bx, s.sp, s.bp, s.si, s.di]

/-- PUSHA makes eight pushes (R184). -/
theorem pusha_accesses (s : State) : Accesses .pusha s (pushFaults 8 s) (pushedAll (pushaWords s) s) := by
  refine accesses_of_cycle (body := pushaBody) rfl ?_
  refine Eq.trans ?_ (foldlM_push16_eq (pushaWords s) s)
  simp [pushaBody, pushaWords]

/-- Settles O38: PUSHA is eight pushes in order, into slots that have no byte in common. -/
theorem pushAll : Obligations.PushAll := by
  refine ⟨rfl, fun s => ⟨(pusha_accesses s).faultsWith, fun hm hnone => ?_⟩⟩
  have depths : [2, 4, 6, 8, 10, 12, 14, 16] = (List.range 8).map fun k => 2 * k + 2 := rfl
  have words : [(2, s.ax), (4, s.cx), (6, s.dx), (8, s.bx), (10, s.sp), (12, s.bp), (14, s.si), (16, s.di)] =
      (pushaWords s).mapIdx fun k v => (2 * k + 2, v) := rfl
  rw [depths, List.forall_mem_map] at hnone
  rw [depths, words]
  simp only [List.forall_mem_map, List.mem_range] at hnone ⊢
  obtain ⟨stored, kept⟩ := pushedAll_reads (vs := pushaWords s) (by simp [pushaWords]) hm hnone
  have noFault : ∀ f ∈ pushFaults 8 s, f = none :=
    List.forall_mem_map.2 fun k hk => hnone k (List.mem_range.1 hk)
  refine ⟨_, (pusha_accesses s).next noFault, pushedAll_sp (pushaWords s) s, fun p hp => ?_, kept,
    (pushedAll_writes Writes.start _).frame⟩
  obtain ⟨k, hk, rfl⟩ := List.mem_mapIdx.1 hp
  exact stored k hk

/-! ### Pops -/

/-- A pop raises the fault of its one access, or else answers the word and raises SP (R181). -/
theorem pop16_eq (s : State) :
    pop16 s = (wordFault s.ss s.sp).elim (.ok (loadWord s.mem (lin s.ss s.sp), s.setReg16 .sp (s.sp + 2))) .error := by
  rw [pop16, segRead16_eq]
  cases wordFault s.ss s.sp <;> rfl

/-- The state that POP leaves before the end of the cycle, with the popped word `v` (R183). -/
def popState (r : Reg16) (v : Word) (s : State) : State := (s.setReg16 r v).setReg16 .sp ((s.setReg16 r v).sp + 2)

theorem popState_writes (r : Reg16) (v : Word) (s : State) : Writes [r, .sp] s (popState r v s) :=
  (Writes.start.word (by simp) v).word (by simp) _

theorem popState_other {r : Reg16} (hr : r ≠ .sp) (v : Word) (s : State) :
    (popState r v s).reg16 r = v ∧ (popState r v s).sp = s.sp + 2 := by
  have sp : (s.setReg16 r v).sp = s.sp := (s.reg16_setReg16 r .sp v).trans (if_neg hr.symm)
  refine ⟨?_, congrArg (· + 2) sp⟩
  rw [popState, State.reg16_setReg16, if_neg hr, State.reg16_setReg16_self]

/-- POP loads a word into its register and then raises SP (R183). -/
theorem pop_accesses (r : Reg16) (s : State) :
    Accesses (.popR16 r) s [wordFault s.ss s.sp] (popState r (loadWord s.mem (lin s.ss s.sp)) s) := by
  refine accesses_of_cycle rfl ?_
  simp only [popBody, segRead16_eq]
  exact access_bind rfl

/-- Settles O37: one access, the register written and SP raised after it. -/
theorem popWord : Obligations.PopWord := by
  intro s r
  have opcode : withField 0x58 r.field = opcodeWithR 0b01011 r.field := withField_eq_opcodeWithR 0b01011 r.field
  refine ⟨by rw [opcode]; rfl, (pop_accesses r s).faultsWith, fun hnone => ?_⟩
  have writes := popState_writes r (loadWord s.mem (lin s.ss s.sp)) s
  obtain ⟨words, segments, flags, outside, ends⟩ := writes.frame
  refine ⟨_, (pop_accesses r s).next (List.forall_mem_singleton.2 hnone), fun hr => ?other, fun hr => ?sp, words,
    segments, flags, fun a => ?memory, outside, ends⟩
  case other =>
    obtain ⟨loaded, raised⟩ := popState_other hr (loadWord s.mem (lin s.ss s.sp)) s
    exact ⟨by rw [State.reg16_endCycle, loaded, loadWord_toNat], raised⟩
  case sp =>
    subst hr
    rw [← loadWord_toNat]
    exact BitVec.toNat_add (loadWord s.mem (lin s.ss s.sp)) 2
  case memory => simp [popState]

/-- The state that POPF leaves before the end of the cycle, with the popped word `v` (R186). -/
def popfState (v : Word) (s : State) : State := { s.setReg16 .sp (s.sp + 2) with flags := Flags.ofWord v }

/-- POPF loads FLAGS (R186). -/
theorem popf_accesses (s : State) :
    Accesses .popf s [wordFault s.ss s.sp] (popfState (loadWord s.mem (lin s.ss s.sp)) s) := by
  refine accesses_of_cycle rfl ?_
  simp only [popfBody, pop16_eq]
  exact access_bind rfl

theorem popfState_wordsKept (v : Word) (s : State) : WordsKept [.sp] s (popfState v s).endCycle :=
  have writes : Writes [.sp] s (s.setReg16 .sp (s.sp + 2)) := Writes.start.word (by decide) _
  fun r hr => ((popfState v s).reg16_endCycle r).trans (writes.wordsKept r hr)

/-- Settles O40: one access, and FLAGS holds all 16 bits of the word. -/
theorem popFlags : Obligations.PopFlags := by
  refine ⟨rfl, fun s => ⟨(popf_accesses s).faultsWith, fun hnone => ?_⟩⟩
  have loaded : (Flags.ofWord (loadWord s.mem (lin s.ss s.sp))).toWord.toNat = wordAt s.mem (lin s.ss s.sp) := by
    rw [Flags.toWord_ofWord, loadWord_toNat]
  exact ⟨_, (popf_accesses s).next (List.forall_mem_singleton.2 hnone), loaded, rfl, popfState_wordsKept _ s,
    ⟨rfl, rfl, rfl, rfl⟩, fun _ => rfl, ⟨rfl, rfl⟩, ⟨rfl, rfl, rfl⟩⟩

end Sys2Proof.Proofs
end

section
/-! PROOFS. Jumps, loop, call and return (44_control.md R200 to R208). -/

namespace Sys2Proof.Proofs

open Sys2Proof Sys2Proof.Machine Sys2Proof.Claims

/-! ### Bodies that set IP -/

/-- IP set by a body. The end of the cycle adds 1 to it (R104, R200). -/
def jumped (ip : Word) (s : State) : State := { s with ip := ip }

/-- An instruction that writes memory and the words `ws` and sets IP leaves everything else and ends one past that IP
(R104). -/
theorem Writes.jumped_frame {ws : List Reg16} {s t : State} (h : Writes ws s t) (ip : Word) :
    WordsKept ws s (jumped ip t).endCycle ∧ SameSegments s (jumped ip t).endCycle ∧
      (jumped ip t).endCycle.flags = s.flags ∧ OutsideKept s (jumped ip t).endCycle ∧
      EndsAt (ip + 1) s (jumped ip t).endCycle := by
  obtain ⟨words, segments, flags, outside, -, ticks, run⟩ := h.frame
  have word (r : Reg16) : (jumped ip t).endCycle.reg16 r = t.endCycle.reg16 r := by cases r <;> rfl
  exact ⟨fun r hr => (word r).trans (words r hr), segments, flags, outside, rfl, ticks, run⟩

/-! ### Relative jumps -/

/-- The IP that the body of a relative jump on `c` leaves (R200). -/
def jumpIp (c : Bool) (d : Byte) (s : State) : Word := if c then s.ip + 1 + sext16 d else s.ip + 1

/-- A relative jump sets IP and nothing else (R200). -/
theorem jumpIf_eq (c : Bool) (d : Byte) (s : State) : jumpIf c d (s.advanceIp 1) = jumped (jumpIp c d s) s := by
  cases c <;> rfl

/-- The displacement is added to the IP of the next instruction (R200). -/
theorem add_sext16_eq_jumpTarget (s : State) (d : Byte) : s.ip + 2 + sext16 d = jumpTarget s d := by
  have displacement : sext16 d = BitVec.ofInt 16 d.toInt := rfl
  have start : s.ip + 2 = BitVec.ofInt 16 (s.ip.toNat + 2) := by
    rw [BitVec.ofInt_add, BitVec.ofInt_natCast, BitVec.ofNat_toNat, BitVec.setWidth_eq]
    rfl
  rw [jumpTarget, BitVec.ofInt_add, start, displacement]

/-- With the 1 that the end of the cycle adds, a jump taken is at its target and one not taken past its two bytes. -/
theorem jumpIp_add_one (c : Bool) (d : Byte) (s : State) :
    jumpIp c d s + 1 = if c then jumpTarget s d else s.ip + 2 := by
  cases c with
  | false => exact BitVec.add_assoc s.ip 1 1
  | true =>
    refine Eq.trans ?_ (add_sext16_eq_jumpTarget s d)
    change s.ip + 1 + sext16 d + 1 = _
    bv_omega

/-- An instruction that is a relative jump on `c`, where `p` says that `c` holds. -/
theorem jumps_of_exec {i : Instr} {s : State} {d : Byte} {c : Bool} {p : Prop}
    (hexec : exec i s = .next (jumpIf c d (s.advanceIp 1)).endCycle) (hc : p ↔ c = true) : Jumps i s d p := by
  obtain ⟨words, segments, flags, outside, ends⟩ := (Writes.start (s := s)).jumped_frame (jumpIp c d s)
  rw [jumpIf_eq] at hexec
  rw [jumpIp_add_one] at ends
  refine ⟨_, hexec, words, segments, flags, fun _ => rfl, outside, fun hp => ?taken, fun hp => ?notTaken⟩
  case taken => rwa [if_pos (hc.1 hp)] at ends
  case notTaken => rwa [if_neg (mt hc.2 hp)] at ends

/-- Settles O42: each is a relative jump on its condition. -/
theorem relativeJumps : Obligations.RelativeJumps := fun s _ =>
  have jbe : s.flag .cf = true ∨ s.flag .zf = true ↔ (s.flag .cf || s.flag .zf) = true := Bool.or_eq_true_iff.symm
  have jnz : s.flag .zf = false ↔ (!s.flag .zf) = true := (Bool.not_eq_true' _).to_iff.symm
  ⟨rfl, rfl, rfl, rfl, rfl, jumps_of_exec rfl (iff_of_true trivial rfl), jumps_of_exec rfl Iff.rfl,
    jumps_of_exec rfl jbe, jumps_of_exec rfl Iff.rfl, jumps_of_exec rfl jnz⟩

/-- LOOP lowers CX and is a relative jump on what is left in it (R206). -/
theorem exec_loop (d : Byte) (s : State) : exec (.loopRel8 d) s =
    .next (jumped (jumpIp (decide (s.cx - 1 ≠ 0)) d s) (s.setReg16 .cx (s.cx - 1))).endCycle :=
  congrArg (fun t : State => Host.Outcome.next t.endCycle)
    (jumpIf_eq (decide (s.cx - 1 ≠ 0)) d (s.setReg16 .cx (s.cx - 1)))

/-- Settles O43: CX is lowered, then the jump is taken on the CX that is left. -/
theorem loopOnCx : Obligations.LoopOnCx := by
  intro s d
  have writes : Writes [.cx] s (s.setReg16 .cx (s.cx - 1)) := Writes.start.word (by decide) _
  obtain ⟨words, segments, flags, outside, ends⟩ := writes.jumped_frame (jumpIp (decide (s.cx - 1 ≠ 0)) d s)
  rw [jumpIp_add_one] at ends
  refine ⟨rfl, _, exec_loop d s, pred_toNat s.cx, fun hcx => ?taken, fun hcx => ?notTaken, words, segments, flags,
    fun _ => rfl, outside⟩
  case taken =>
    have remaining : s.cx - 1 ≠ 0 := hcx
    rwa [if_pos (decide_eq_true remaining)] at ends
  case notTaken =>
    have remaining : ¬ s.cx - 1 ≠ 0 := not_not_intro hcx
    rwa [if_neg (mt of_decide_eq_true remaining)] at ends

/-! ### CALL -/

/-- The two bytes of an immediate word in numbers, low byte first (R82). -/
theorem lowHigh_eq_ofNat (w : Word) :
    [lowByte w, highByte w] = [BitVec.ofNat 8 w.toNat, BitVec.ofNat 8 (w.toNat / 256)] := by
  have low : lowByte w = BitVec.ofNat 8 w.toNat := BitVec.eq_of_toNat_eq (lowByte_toNat w)
  have high : highByte w = BitVec.ofNat 8 (w.toNat / 256) := by
    rw [← highByte_toNat, BitVec.ofNat_toNat, BitVec.setWidth_eq]
  rw [low, high]

/-- The advance over the operand bytes can be made by the body (R89, R103). -/
theorem cycle_eq_cycle_one (len : Nat) (body : State → Except Fatal State) (s : State) :
    cycle len body s = cycle 1 (fun t => body (t.advanceIp (len - 1))) s := by
  simp [cycle, cycleOrExit, State.advanceIp]

/-- CALL is one push, of IP0 + 2, and then sets IP (R207). -/
theorem call_accesses (disp : Word) (s : State) :
    Accesses (.callRel16 disp) s [wordFault s.ss (s.sp - 2)] (jumped (s.ip + 2 + disp) (pushed (s.ip + 2) s)) := by
  refine accesses_of_cycle (cycle_eq_cycle_one 3 (callBody disp) s) ?_
  simp only [callBody, push16_eq]
  exact access_bind rfl

/-- Settles O44: one push, then the jump. -/
theorem callNear : Obligations.CallNear := by
  intro s disp
  refine ⟨congrArg (0xE8 :: ·) (lowHigh_eq_ofNat disp), (call_accesses disp s).faultsWith, fun hm hnone => ?_⟩
  have writes : Writes [.sp] s (pushed (s.ip + 2) s) := (Writes.start.word (by decide) _).mem _
  have target : s.ip + 2 + disp + 1 = BitVec.ofNat 16 (s.ip.toNat + 3 + disp.toNat) := by bv_omega
  obtain ⟨stored, kept⟩ := storeWord_reads (s.ip + 2) hm hnone
  rw [← target]
  exact ⟨_, (call_accesses disp s).next (List.forall_mem_singleton.2 hnone), rfl,
    stored.trans (BitVec.toNat_add s.ip 2), kept, writes.jumped_frame _⟩

/-! ### RET -/

/-- The state after a pop (R181). -/
def popped (s : State) : State := s.setReg16 .sp (s.sp + 2)

theorem popped_writes (s : State) : Writes [.sp] s (popped s) := Writes.start.word (by decide) _

/-- The body of RET raises the fault of its pop, or else ends by the popped word (R208). -/
theorem retBody_eq (s : State) : retBody s =
    (wordFault s.ss s.sp).elim
      (.ok (if loadWord s.mem (lin s.ss s.sp) = 0 then .terminated 0 (popped s)
        else .returned (jumped (loadWord s.mem (lin s.ss s.sp)) (popped s))))
      .error := by
  rw [retBody, pop16_eq]
  cases wordFault s.ss s.sp <;> rfl

/-- RET raises the fault of its pop; or else 0 ends the run with SP raised, and another word is where IP goes (R208). -/
theorem exec_ret (s : State) : exec .ret s =
    (wordFault s.ss s.sp).elim
      (.next (if loadWord s.mem (lin s.ss s.sp) = 0 then (popped s).terminate 0
        else (jumped (loadWord s.mem (lin s.ss s.sp)) (popped s)).endCycle))
      fun c => .fault (.fatal c s.cs s.ip) := by
  have start : s.advanceIp (1 - 1) = s := by simp [State.advanceIp]
  change cycleOrExit 1 retBody s = _
  rw [cycleOrExit, start, retBody_eq]
  cases wordFault s.ss s.sp with
  | some c => rfl
  | none =>
    simp only [Option.elim_none]
    by_cases hv : loadWord s.mem (lin s.ss s.sp) = 0
    · simp only [if_pos hv]
    · simp only [if_neg hv]

/-- Settles O45: one pop, then the end of the run or the jump by the popped word. -/
theorem returnNear : Obligations.ReturnNear := by
  refine ⟨rfl, fun s => ⟨fun c hc => ?fault, fun hnone => ?_⟩⟩
  case fault =>
    have pop : wordFault s.ss s.sp = some c := (List.findSome?_singleton ..).symm.trans hc
    rw [exec_ret, pop]
    rfl
  rw [exec_ret, hnone, ← loadWord_toNat]
  by_cases hv : loadWord s.mem (lin s.ss s.sp) = 0
  · rw [if_pos hv]
    exact ⟨_, rfl, rfl, fun h => absurd (congrArg BitVec.toNat hv) h, fun _ => ⟨rfl, rfl, rfl⟩,
      fun r hr => ((popped s).reg16_terminate 0 r).trans ((popped_writes s).wordsKept r hr), ⟨rfl, rfl, rfl, rfl⟩, rfl,
      fun _ => rfl, ⟨rfl, rfl⟩⟩
  · rw [if_neg hv]
    obtain ⟨words, segments, flags, outside, ends⟩ := (popped_writes s).jumped_frame (loadWord s.mem (lin s.ss s.sp))
    refine ⟨_, rfl, rfl, fun _ => ?_, fun h => absurd (BitVec.eq_of_toNat_eq h) hv, words, segments, flags,
      fun _ => rfl, outside⟩
    rwa [BitVec.ofNat_add, BitVec.ofNat_toNat, BitVec.setWidth_eq]

/-- Settles O46: the word that CALL pushes is the one that RET pops, and it is not 0. -/
theorem callThenReturn : Obligations.CallThenReturn := by
  intro s disp hm hnone hip
  obtain ⟨-, -, call⟩ := callNear s disp
  obtain ⟨t, hcall, hsp, stored, -, -, ⟨-, -, hss, -⟩, -, -, -, -, trun⟩ := call hm hnone
  obtain ⟨-, ret⟩ := returnNear.2 t
  rw [hss, hsp, stored] at ret
  obtain ⟨u, hret, raised, returns, -⟩ := ret hnone
  have nonzero : (s.ip.toNat + 2) % 65536 ≠ 0 := by bv_omega
  obtain ⟨uip, -, urun⟩ := returns nonzero
  refine ⟨t, u, hcall, hret, ?_, ?_, urun.trans trun⟩
  · rw [uip]
    bv_omega
  · rw [raised]
    exact BitVec.sub_add_cancel s.sp 2

end Sys2Proof.Proofs
end

section
/-! PROOFS. INT and the BIOS collaborator (45_interrupt.md R220 to R226). -/

namespace Sys2Proof.Proofs

open Sys2Proof Sys2Proof.Machine Sys2Proof.Claims

/-! ### The collaborator's services -/

/-- The video services are function 0x0E alone (R223). -/
theorem bios_video (f : Byte) (s : State) :
    bios 0x10 f s =
      if f = 0x0E then .ok (.continues [s.reg8 .al]) else .ok (.unsupported (.badBiosFunction 0x10 f)) := rfl

/-- The platform services are functions 0x09 and 0x4C alone (R224, R225). -/
theorem bios_platform (f : Byte) (s : State) :
    bios 0x21 f s =
      if f = 0x09 then (printedString s).map .continues
      else if f = 0x4C then .ok (.terminates (s.reg8 .al))
      else .ok (.unsupported (.badBiosFunction 0x21 f)) := rfl

/-- No other number has a service (R226). -/
theorem bios_otherNumber {n : Byte} (f : Byte) (s : State) (video : n ≠ 0x10) (platform : n ≠ 0x21) :
    bios n f s = .ok (.unsupported (.badInterrupt n f)) := by
  rw [bios, if_neg video, if_neg platform]

/-- No service reads IP. -/
theorem bios_advanceIp (n f : Byte) (s : State) (k : Nat) : bios n f (s.advanceIp k) = bios n f s := rfl

/-! ### INT by the collaborator's answer -/

/-- The state with `out` appended to the output stream (R221). -/
def emitted (out : List Byte) (s : State) : State := { s with output := s.output ++ out }

/-- How INT ends on an answer of the collaborator, or on a fatal condition that the service raises (R220, R221). -/
def afterBios (s : State) : Except Fatal BiosAnswer → Host.Outcome State Fault Refusal
  | .ok (.continues out) => .next (emitted out (s.advanceIp 1)).endCycle
  | .ok (.terminates status) => .next ((s.advanceIp 1).terminate status)
  | .ok (.unsupported c) => .fault (.fatal c s.cs s.ip)
  | .error c => .fault (.fatal c s.cs s.ip)

/-- INT asks the collaborator with its number and AH and acts on the answer (R220). -/
theorem exec_intImm8 (n : Byte) (s : State) : exec (.intImm8 n) s = afterBios s (bios n (s.reg8 .ah) s) := by
  change cycleOrExit 2 (intBody n) s = _
  rw [cycleOrExit, intBody, State.reg8_advanceIp, bios_advanceIp]
  cases bios n (s.reg8 .ah) s with
  | error c => rfl
  | ok answer => cases answer <;> rfl

/-- A service that continues with `out` appends it, changes nothing else, and lets the cycle end (R104, R222). -/
theorem emits_of_bios {n : Byte} {s : State} {out : List Byte} (h : bios n (s.reg8 .ah) s = .ok (.continues out)) :
    ∃ t, exec (.intImm8 n) s = .next t ∧ t.output = s.output ++ out ∧ IntKeeps s t ∧ EndsAt (s.ip + 2) s t := by
  have words : WordsKept [] s (emitted out (s.advanceIp 1)).endCycle := fun r _ => by cases r <;> rfl
  have past : s.ip + 1 + 1 = s.ip + 2 := BitVec.add_assoc s.ip 1 1
  exact ⟨_, (exec_intImm8 n s).trans (congrArg (afterBios s) h), rfl, ⟨words, ⟨rfl, rfl, rfl, rfl⟩, rfl, fun _ => rfl, rfl⟩,
    past, rfl, rfl⟩

/-- Settles O47: the video service continues with the byte in AL. -/
theorem intPrintsCharacter : Obligations.IntPrintsCharacter :=
  ⟨fun _ => rfl, fun s hah => emits_of_bios ((bios_video _ s).trans (if_pos hah))⟩

/-- Settles O49: the platform service terminates, and the cycle has no end that would move IP on (R105). -/
theorem intExits : Obligations.IntExits := by
  intro s hah
  have answer : bios 0x21 (s.reg8 .ah) s = .ok (.terminates (s.reg8 .al)) := by
    rw [bios_platform, hah]
    rfl
  have words : WordsKept [] s ((s.advanceIp 1).terminate (s.reg8 .al)) := fun r _ => by simp
  exact ⟨_, (exec_intImm8 0x21 s).trans (congrArg (afterBios s) answer), rfl, rfl, rfl, rfl, words, ⟨rfl, rfl, rfl, rfl⟩,
    rfl, fun _ => rfl, rfl⟩

/-- Settles O50: no service has the number, or none of its services has the function. -/
theorem intUnsupported : Obligations.IntUnsupported := by
  refine fun s n => ⟨fun video platform => ?number, fun hn hah => ?video, fun hn hprint hexit => ?platform⟩
  case number => rw [exec_intImm8, bios_otherNumber _ s video platform]; rfl
  case video => rw [hn, exec_intImm8, bios_video, if_neg hah]; rfl
  case platform => rw [hn, exec_intImm8, bios_platform, if_neg hprint, if_neg hexit]; rfl

/-! ### The print-string loop -/

/-- The loop emits `k` bytes that exist and are not the sentinel, and goes on behind them (R224). -/
theorem printString_add {m : Memory} {ds : Word} {sentinel : Byte} {o k : Nat}
    (h : ∀ j < k, ds.toNat * 16 + (o + j) < Config.memSize ∧ m.read (ds.toNat * 16 + (o + j)) ≠ sentinel) (left : Nat) :
    printString m ds sentinel (left + k) o =
      (printString m ds sentinel left (o + k)).map
        ((List.range k).map (fun j => m.read (ds.toNat * 16 + (o + j))) ++ ·) := by
  induction k generalizing left with
  | zero => exact (congrFun Except.map_id _).symm
  | succ k ih =>
    obtain ⟨hmem, other⟩ := h k k.lt_succ_self
    have before := ih (fun j hj => h j (Nat.lt_succ_of_lt hj)) (left + 1)
    have shift : left + 1 + k = left + (k + 1) := by omega
    rw [← shift, before, printString, memRead8_ok.2 ⟨hmem, rfl⟩]
    simp only [if_neg other, List.range_succ, List.map_append, Nat.add_assoc]
    cases printString m ds sentinel left (o + (k + 1)) with
    | error c => rfl
    | ok out => simp [Except.map]

/-- The loop stops at the sentinel, which it does not emit (R224). -/
theorem printString_sentinel {m : Memory} {ds : Word} {o : Nat} (left : Nat)
    (hmem : ds.toNat * 16 + o < Config.memSize) :
    printString m ds (m.read (ds.toNat * 16 + o)) (left + 1) o = .ok [] := by
  rw [printString, memRead8_ok.2 ⟨hmem, rfl⟩]
  exact if_pos rfl

/-- The loop faults at a byte that does not exist (R224, R52). -/
theorem printString_beyond {m : Memory} {ds : Word} {o : Nat} (sentinel : Byte) (left : Nat)
    (hmem : ds.toNat * 16 + o ≥ Config.memSize) :
    printString m ds sentinel (left + 1) o = .error (.addressRange (ds.toNat * 16 + o)) := by
  rw [printString, memRead8_beyond hmem]

/-- The string at DS:PSTR_REG is the first `k` bytes, when the loop reaches the byte behind them, and then what the loop
answers from that byte (R224). -/
theorem printedString_of_reaches {s : State} {k left : Nat} (h : StringReaches s k)
    (hleft : (s.reg16 s.params.pstrReg).toNat + k + left = 0x10000) :
    printedString s =
      (printString s.mem s.ds s.params.sentinel left ((s.reg16 s.params.pstrReg).toNat + k)).map
        ((List.range k).map (fun j => s.mem.read (stringAddress s j)) ++ ·) := by
  have offsets : 0x10000 - (s.reg16 s.params.pstrReg).toNat = left + k := by omega
  rw [printedString, offsets]
  exact printString_add (fun j hj => (h j hj).2) left

/-- INT 0x21 with AH = 0x09 acts on the string at DS:PSTR_REG (R224). -/
theorem bios_printString {s : State} (hah : s.reg8 .ah = 0x09) :
    bios 0x21 (s.reg8 .ah) s = (printedString s).map .continues := by
  rw [bios_platform, if_pos hah]

/-- Settles O48: the loop passes over the first `k` bytes; the byte behind them, or its absence, ends it. -/
theorem intPrintsString : Obligations.IntPrintsString := by
  intro s k hah hreach
  have within (ho : (s.reg16 s.params.pstrReg).toNat + k ≤ 0xFFFF) :
      ∃ left, (s.reg16 s.params.pstrReg).toNat + k + (left + 1) = 0x10000 :=
    (Nat.le.dest ho).imp fun _ hleft => congrArg (· + 1) hleft
  refine ⟨fun ho hmem hsentinel => ?sentinel, fun ho hmem => ?beyond, fun ho => ?wrap⟩
  case sentinel =>
    obtain ⟨left, hleft⟩ := within ho
    refine emits_of_bios ?_
    rw [bios_printString hah, printedString_of_reaches hreach hleft, ← hsentinel, stringAddress,
      printString_sentinel left hmem]
    simp [Except.map]
  case beyond =>
    obtain ⟨left, hleft⟩ := within ho
    rw [exec_intImm8, bios_printString hah, printedString_of_reaches hreach hleft, printString_beyond _ left hmem]
    rfl
  case wrap =>
    rw [exec_intImm8, bios_printString hah, printedString_of_reaches (left := 0) hreach ho, ho]
    rfl

end Sys2Proof.Proofs
end

section
/-! PROOFS. The moves (46_move.md R240 to R247). -/

namespace Sys2Proof.Proofs

open Sys2Proof Sys2Proof.Machine Sys2Proof.Claims

/-! ### Moves to a byte register -/

/-- An instruction of two bytes that leaves a write of `v` to `d` alone is a byte move. -/
theorem movesByte_of_exec {i : Instr} {s : State} {d : Reg8} {v : Byte}
    (hexec : exec i s = .next ((s.advanceIp 1).setReg8 d v).endCycle) : MovesByte i s d v :=
  ⟨_, hexec, by simp, bytesKept_of_setReg8 fun r => State.reg16_endCycle _ r, by simp,
    registerOnly_endCycle (by decide) (by simp)⟩

/-- Settles O28: each form writes its destination alone. -/
theorem moveByte : Obligations.MoveByte := by
  intro s d r imm
  have opcode : withField 0xB0 d.field = opcodeWithR 0b10110 d.field := withField_eq_opcodeWithR 0b10110 d.field
  exact ⟨opcode_direct .., opcode_direct .., by rw [opcode]; rfl, movesByte_of_exec rfl, movesByte_of_exec rfl,
    movesByte_of_exec rfl⟩

/-! ### Moves to a word register -/

/-- An instruction that leaves a write of `v` to `d` alone is a word move. -/
theorem movesWord_of_exec {i : Instr} {len : Nat} {s : State} {d : Reg16} {v : Word} (hlen : 0 < len)
    (hexec : exec i s = .next ((s.advanceIp (len - 1)).setReg16 d v).endCycle) : MovesWord i len s d v :=
  ⟨_, hexec, by simp, wordsKept_of_setReg16 fun r => State.reg16_endCycle _ r, by simp,
    registerOnly_endCycle hlen (by simp)⟩

/-- Settles O29: each form writes its destination alone. -/
theorem moveWord : Obligations.MoveWord := by
  intro s d r imm
  have opcode : withField 0xB8 d.field = opcodeWithR 0b10111 d.field := withField_eq_opcodeWithR 0b10111 d.field
  have immediate : encode (.movR16Imm16 d imm) =
      [withField 0xB8 d.field, BitVec.ofNat 8 imm.toNat, BitVec.ofNat 8 (imm.toNat / 256)] := by
    rw [opcode, ← lowHigh_eq_ofNat]
    rfl
  exact ⟨opcode_direct .., opcode_direct .., opcode_direct .., opcode_direct .., immediate,
    movesWord_of_exec (by decide) rfl, movesWord_of_exec (by decide) rfl, movesWord_of_exec (by decide) rfl,
    movesWord_of_exec (by decide) rfl, movesWord_of_exec (by decide) rfl⟩

/-! ### Moves to a segment register -/

/-- The state after the move of `v` to the segment register `r` (R245). -/
def movedToSegment (r : SReg) (v : Word) (s : State) : State := ((s.advanceIp 1).setSreg r v).endCycle

/-- A move to a segment register leaves everything but the segment registers and ends past its two bytes (R104, R245). -/
theorem movedToSegment_frame (r : SReg) (v : Word) (s : State) :
    WordsKept [] s (movedToSegment r v s) ∧ (movedToSegment r v s).flags = s.flags ∧
      SameMemory s (movedToSegment r v s) ∧ OutsideKept s (movedToSegment r v s) ∧
      EndsAt (s.ip + 2) s (movedToSegment r v s) := by
  have ip : (movedToSegment r v s).ip = s.ip + 2 := by
    rw [movedToSegment, State.endCycle_ip, State.setSreg_ip, State.advanceIp_ip]
    exact BitVec.add_assoc s.ip 1 1
  refine ⟨fun q _ => ?_, ?_, fun a => ?_, ⟨?_, ?_⟩, ip, ?_, ?_⟩ <;> simp [movedToSegment]

/-- Settles O30: the segment register written is the destination, and the frame is that of any move to one. -/
theorem moveToSegment : Obligations.MoveToSegment := fun s rm =>
  ⟨opcode_direct .., opcode_direct ..,
    ⟨movedToSegment .cs (s.reg16 rm) s, rfl, rfl, rfl, rfl, rfl, movedToSegment_frame ..⟩,
    ⟨movedToSegment .ds (s.reg16 rm) s, rfl, rfl, rfl, rfl, rfl, movedToSegment_frame ..⟩⟩

end Sys2Proof.Proofs
end

section
/-! PROOFS. How a run ends other than by a fault: at the budget (60_exceptions.md R262), or in RET and INT (R261). -/

namespace Sys2Proof.Proofs

open Sys2Proof Sys2Proof.Machine Sys2Proof.Claims

/-! ### The end at the budget -/

/-- Settles O8: the step looks at TICKS before it fetches. -/
theorem budgetEndsRun : Obligations.BudgetEndsRun := by
  intro s hrun hover
  rw [step, hrun]
  exact if_pos hover

/-! ### RUN after an instruction -/

/-- Only the bodies of RET and INT can terminate; every other instruction that answers a next state ends its cycle
(R104, R261). -/
theorem exec_next_endCycle {i : Instr} {s t : State} (hret : i ≠ .ret) (hint : ∀ n, i ≠ .intImm8 n)
    (h : exec i s = .next t) : ∃ u : State, t = u.endCycle := by
  cases i with
  | ret => exact absurd rfl hret
  | intImm8 n => exact absurd rfl (hint n)
  | pushR16 | popR16 | pusha | pushf | popf | callRel16 | movsb | movsw | lodsb | lodsw | stosb | stosw =>
    exact (cycle_next.1 h).imp fun _ => And.right
  | _ => exact ⟨_, (Host.Outcome.next.inj h).symm⟩

/-- An instruction whose body cannot terminate keeps RUN. No instruction reads TICKS, so let it start at 0: the end of
the cycle makes TICKS positive, which an instruction that ends the run does not. -/
theorem exec_run_kept {i : Instr} {s t : State} (hret : i ≠ .ret) (hint : ∀ n, i ≠ .intImm8 n)
    (h : exec i s = .next t) : t.run = s.run := by
  have later := ticksNeverRead i { s with ticks := 0 } s.ticks
  simp only [Nat.zero_add] at later
  rw [h] at later
  cases hzero : exec i { s with ticks := 0 } with
  | fault | refused => rw [hzero] at later; cases later
  | next t₀ =>
    rw [hzero] at later
    cases later
    obtain ⟨kept, -⟩ | ⟨-, unticked⟩ := exec_clock hzero
    · exact kept
    · obtain ⟨u, rfl⟩ := exec_next_endCycle hret hint hzero
      exact absurd unticked u.ticks.succ_ne_zero

/-- RET ends the run with status 0 on a popped word 0 and keeps RUN on any other (R208). -/
theorem exec_ret_run {s t : State} (h : exec .ret s = .next t) :
    t.run = if wordAt s.mem (lin s.ss s.sp) = 0 then .halted (.exit 0) else s.run := by
  cases hpop : wordFault s.ss s.sp with
  | some c =>
    rw [exec_ret, hpop] at h
    cases h
  | none =>
    obtain ⟨t', ht', -, nonzero, zero, -⟩ := (returnNear.2 s).2 hpop
    cases ht'.symm.trans h
    split
    case isTrue hword => exact (zero hword).1
    case isFalse hword =>
      obtain ⟨-, -, kept⟩ := nonzero hword
      exact kept

/-- INT ends the run with status AL when the number is 0x21 and AH is 0x4C, and keeps RUN else (R225, R222). -/
theorem exec_intImm8_run {n : Byte} {s t : State} (h : exec (.intImm8 n) s = .next t) :
    t.run = if n = 0x21 ∧ s.reg8 .ah = 0x4C then .halted (.exit (s.reg8 .al)) else s.run := by
  split
  case isTrue hexit =>
    obtain ⟨rfl, hah⟩ := hexit
    obtain ⟨t', ht', ended, -⟩ := intExits s hah
    cases ht'.symm.trans h
    exact ended
  case isFalse hexit =>
    obtain ⟨u, hbody, rfl⟩ | ⟨st, u, hbody, rfl⟩ := cycleOrExit_next (len := 2) h
    · obtain ⟨out, hu, -⟩ | ⟨hu, -⟩ := intBody_ok hbody
      · cases hu
        rfl
      · cases hu
    · obtain ⟨out, hu, -⟩ | ⟨-, hn, hah⟩ := intBody_ok hbody
      · cases hu
      · exact absurd ⟨hn, (State.reg8_advanceIp s _ .ah).symm.trans hah⟩ hexit

/-- Settles O55: RET and INT end the run under their condition alone, and no other instruction writes RUN. -/
theorem normalTerminations : Obligations.NormalTerminations := by
  intro i s t running h
  refine ⟨fun ⟨hi, hah⟩ => ?exit, fun ⟨hi, hword⟩ => ?ret, fun notExit notRet => ?other⟩
  case exit =>
    subst hi
    rw [exec_intImm8_run h, if_pos ⟨rfl, hah⟩]
  case ret =>
    subst hi
    rw [exec_ret_run h, if_pos hword]
  case other =>
    by_cases hret : i = .ret
    · subst hret
      rw [exec_ret_run h, if_neg fun hword => notRet ⟨rfl, hword⟩, running]
    by_cases hint : ∃ n, i = .intImm8 n
    · obtain ⟨n, rfl⟩ := hint
      rw [exec_intImm8_run h, if_neg fun ⟨hn, hah⟩ => notExit ⟨congrArg _ hn, hah⟩, running]
    · exact (exec_run_kept hret (not_exists.1 hint) h).trans running

end Sys2Proof.Proofs
end

section
/-! PROOFS. The state a launch leaves (20_memory.md R68, 70_reset_and_hazards.md R290), and the bound on the length of
every run (R298). -/

namespace Sys2Proof.Proofs

open Sys2Proof Sys2Proof.Machine Sys2Proof.Claims

/-! ### The loader's copy -/

section
variable {bs : List Byte} {a : Nat} {m : Memory}

/-- The copy changes no byte outside the range it fills. -/
theorem read_writeBytes_outside {c : Nat} (hfits : a + bs.length ≤ Config.memSize) (hm : m.wf = true)
    (hc : c < a ∨ a + bs.length ≤ c) : (m.writeBytes a bs).read c = m.read c := by
  induction bs generalizing a m with
  | nil => rfl
  | cons b bs ih =>
    rw [List.length_cons] at hfits hc
    have later : ((m.write a b).writeBytes (a + 1) bs).read c = (m.write a b).read c :=
      ih (by omega) (Memory.write_wf (by omega) hm) (by omega)
    rw [Memory.writeBytes, later, Memory.read_write hm, if_neg (by omega)]

/-- The bytes stand where the copy put them. -/
theorem bytesAt_writeBytes (hfits : a + bs.length ≤ Config.memSize) (hm : m.wf = true) :
    BytesAt (m.writeBytes a bs) a bs := by
  induction bs generalizing a m with
  | nil => exact fun k hk => absurd hk k.not_lt_zero
  | cons b bs ih =>
    rw [List.length_cons] at hfits
    have hfirst : (m.write a b).wf = true := Memory.write_wf (by omega) hm
    refine bytesAt_cons.2 ⟨?_, ih (by omega) hfirst⟩
    rw [Memory.writeBytes, read_writeBytes_outside (by omega) hfirst (.inl a.lt_succ_self), Memory.read_write hm,
      if_pos rfl]

end

/-! ### Reset -/

/-- Settles O15: the image is copied into a memory that lists nothing. -/
theorem launchState : Obligations.LaunchState := by
  refine fun p => ⟨fun beyond => if_pos beyond, fun fits => ?_⟩
  have empty : Memory.wf [] = true := rfl
  have image := bytesAt_writeBytes fits empty
  have elsewhere (a : Nat) := read_writeBytes_outside (c := a) fits empty
  exact ⟨_, if_neg (Nat.not_lt.2 fits), Memory.writeBytes_wf fits empty, rfl, rfl, rfl, rfl, rfl, rfl, rfl, rfl, rfl,
    rfl, rfl, rfl, rfl, Flags.atReset_toWord, rfl, rfl, rfl, rfl, image, elsewhere⟩

/-- Settles O16: the copy of an empty image writes nothing, and TICKS starts at 0. -/
theorem resetIsTestLaunch : Obligations.ResetIsTestLaunch := ⟨rfl, rfl, rfl, Nat.zero_le _⟩

/-! ### From Running every step is defined -/

section
variable (len : Nat) (s : State)

/-- A cycle raises a fault or answers a next state (R104 to R106). -/
theorem cycleOrExit_answers (body : State → Except Fatal BodyEnd) :
    (∃ f, cycleOrExit len body s = .fault f) ∨ ∃ t, cycleOrExit len body s = .next t := by
  unfold cycleOrExit
  split
  · exact .inl ⟨_, rfl⟩
  · exact .inr ⟨_, rfl⟩
  · exact .inr ⟨_, rfl⟩

theorem cycle_answers (body : State → Except Fatal State) :
    (∃ f, cycle len body s = .fault f) ∨ ∃ t, cycle len body s = .next t := cycleOrExit_answers len s _

end

/-- No instruction is refused: each is a cycle around a body (R103), and the cycle of a body that raises nothing
completes. -/
theorem exec_answers (i : Instr) (s : State) : (∃ f, exec i s = .fault f) ∨ ∃ t, exec i s = .next t := by
  cases i with
  | ret | intImm8 => exact cycleOrExit_answers _ s _
  | pushR16 | popR16 | pusha | pushf | popf | callRel16 | movsb | movsw | lodsb | lodsw | stosb | stosw =>
    exact cycle_answers _ s _
  | _ => exact .inr ⟨_, rfl⟩

/-- A step from Running is never refused (R98). -/
theorem step_answers {s : State} (running : s.run = .running) : (∃ f, step s = .fault f) ∨ ∃ t, step s = .next t := by
  by_cases spent : s.ticks > s.params.tickBudget
  · exact .inr ⟨_, budgetEndsRun s running spent⟩
  have canFetch : CanFetch s := ⟨running, Nat.not_lt.1 spent⟩
  cases hfetch : fetch s with
  | error c => exact .inl ⟨_, step_of_fetch_error canFetch hfetch⟩
  | ok i =>
    rw [step_of_fetch_ok canFetch hfetch]
    exact exec_answers i s

/-! ### The end of every run -/

section
variable {M : Host.Core} {k : Nat} {s : M.State}

/-- A run goes on from the state that its first step answers. -/
theorem run_succ_of_next {t : M.State} (h : M.step s = .next t) : M.run (k + 1) s = M.run k t := by
  rw [Host.Core.run, h]

/-- A run stops at a first step that faults. -/
theorem run_succ_of_fault {f : M.Fault} (h : M.step s = .fault f) : M.run (k + 1) s = .fault f := by
  rw [Host.Core.run, h]

end

section
variable {s t : State}

theorem endedBy_zero (h : s.isHalted = true) : EndedBy 0 s := .inr ⟨s, rfl, h⟩

theorem endedBy_one_of_fault {f : Fault} (h : step s = .fault f) : EndedBy 1 s :=
  .inl ⟨f, run_succ_of_fault (M := core) h⟩

/-- A run that ends from the state after a step ends one step later from the state before it. -/
theorem endedBy_succ {k : Nat} (h : step s = .next t) (ended : EndedBy k t) : EndedBy (k + 1) s := by
  have later : core.run (k + 1) s = core.run k t := run_succ_of_next (M := core) h
  rwa [EndedBy, later]

end

/-- Settles O60, by induction on what is left of the budget: a step that does not end the run uses 1 of it (R104), and
where nothing is left the step ends the run (R99). -/
theorem everyRunEnds : Obligations.EveryRunEnds := by
  intro s running
  induction left : s.params.tickBudget + 1 - s.ticks generalizing s with
  | zero =>
    have spent : s.ticks > s.params.tickBudget := by omega
    exact ⟨1, le_rfl, endedBy_succ (budgetEndsRun s running spent) (endedBy_zero rfl)⟩
  | succ n ih =>
    obtain ⟨f, fault⟩ | ⟨t, next⟩ := step_answers running
    · exact ⟨1, by omega, endedBy_one_of_fault fault⟩
    obtain ⟨goesOn, ticked⟩ | ⟨halted, -⟩ := ticksCountCompleted s t next
    · obtain ⟨-, -, sameParams⟩ := stackAndExtraSegmentsFixed s t next
      obtain ⟨k, hk, ended⟩ := ih t goesOn (by rw [sameParams, ticked]; omega)
      exact ⟨k + 1, by omega, endedBy_succ next ended⟩
    · exact ⟨1, by omega, endedBy_succ next (endedBy_zero halted)⟩

end Sys2Proof.Proofs
end
